-- ==== Sys2Proof/Word.lean ====
section
/-! DEFINITION. The words of FDI: command words, sequencer codes, physical-layer codes and the
opaque values FDI only copies (spec/30_encoding.md R60, R64, R70; spec/00_scope.md R10). -/

namespace Sys2Proof

/-- A command word or the data word of a response: 32 bits (R60, R66). -/
abbrev Word := BitVec 32

/-- One transmitted or received bit, `true` for 1. -/
abbrev Bit := Bool

/-- The bit pattern of a symbol, an amplitude, an LLR or a `din` item, written as a numeral. FDI
does no arithmetic on these values (R10), so their widths `SYM_W`, `AMP_W`, `LLR_W` are bounds
kept by the invariant and not part of the type (assumption log 8). -/
abbrev Code := Nat

/-- An 8-bit character of the text channel (R68). -/
abbrev Char8 := BitVec 8

/-- The physical-layer state codes (R64). Code 3 is reserved. -/
abbrev Phy.searching : BitVec 2 := 0
abbrev Phy.trial : BitVec 2 := 1
abbrev Phy.synced : BitVec 2 := 2
abbrev Phy.reserved : BitVec 2 := 3

/-- The codes of the sequencer register `SEQ` (R70). -/
abbrev Phase.idle : BitVec 4 := 0x0
abbrev Phase.gate : BitVec 4 := 0x1
abbrev Phase.shap : BitVec 4 := 0x2
abbrev Phase.isyn : BitVec 4 := 0x3
abbrev Phase.wchk : BitVec 4 := 0x4
abbrev Phase.dsub : BitVec 4 := 0x5
abbrev Phase.tdec : BitVec 4 := 0x6
abbrev Phase.uwer : BitVec 4 := 0x7
abbrev Phase.adv : BitVec 4 := 0x8
abbrev Phase.verd : BitVec 4 := 0x9
abbrev Phase.tenc : BitVec 4 := 0xA

/-- What the decoder reads: a host command word (format C of R60) or the value of the sequencer
register (format U, R70). The two never mix: the micro-operations are not host-issuable. -/
inductive Encoded where
  | command (w : Word)
  | phase (seq : BitVec 4)
deriving DecidableEq, Repr

end Sys2Proof
end

