-- ==== Sys2Proof/Config.lean ====
section
/-! DEFINITION. The configuration of an FDI instance: the parameters of spec/00_scope.md R7 to R9,
its well-formedness (R8, R9, R90, R146), the toy instance T1 of spec/95_test_vectors.md, and the
one open instance `Config.cfg` every claim is about. -/

namespace Sys2Proof

/-- What `DEC` returns (R9, R69). -/
structure DecResult where
  bits : List Bit
  iter : Nat
  pcc : Nat
deriving DecidableEq, Repr

/-- The parameters of R7 and R9 under the spec's own symbols. -/
structure Config where
  /-- `interleave_depth`. -/
  D : Nat
  /-- `data_bits_per_frame`. -/
  K : Nat
  /-- `coded_bits_per_frame`. -/
  B : Nat
  /-- `coded_symbols_per_frame`. -/
  S : Nat
  /-- `uw_bits`. -/
  U : Nat
  /-- `text_bits`. -/
  T : Nat
  /-- `bits_per_physical_frame`. -/
  F : Nat
  /-- `ldpc_data_bits`. -/
  ND : Nat
  /-- `ldpc_coded_bits_per_frame`. -/
  NC : Nat
  /-- `total_parity_checks`. -/
  NPCHK : Nat
  /-- One decoded audio frame's worth of samples. -/
  N_SPEECH : Nat
  /-- The decoder's configured maximum of iterations. -/
  ITER_MAX : Nat
  /-- The expected unique word. -/
  UW : List Bit
  /-- The test-mode reference bits. -/
  REF : List Bit
  /-- The deinterleaver's read map on `[0, N)`. -/
  PI : Nat → Nat
  /-- Symbols, amplitudes, Es/No and mean amplitude to LLRs. -/
  S2L : List Code → List Code → BitVec 16 → Code → List Code
  /-- The FEC decoder. -/
  DEC : List Code → DecResult
  /-- The pad LLR. -/
  LLR_PAD : Code
  /-- The partial map from characters to codewords. -/
  TXT_TABLE : List (Char8 × List Bit)
  /-- The maximum codeword length. -/
  TXT_CODE_MAX : Nat
  /-- The iteration bound for accepting interleaver sync. -/
  TRIAL_ITER_MAX : Nat
  ESNO_DEFAULT : BitVec 16
  SQTH_DEFAULT : BitVec 16
  SYM_W : Nat
  AMP_W : Nat
  LLR_W : Nat
  /-- A FREE VALUE, not the spec's: what UWERR holds when the count of unique-word errors does not
  fit its 16 bits, which the spec states nowhere (assumption log 9). -/
  uwerrWide : Nat → BitVec 16

/-- Window length `N` (R8). -/
def Config.N (c : Config) : Nat := c.D * c.S

/-- Padding count (R8). -/
def Config.PADN (c : Config) : Nat := c.ND - c.K

/-- Bytes of the packed output buffer (R8). -/
def Config.OUT_BYTES (c : Config) : Nat := (c.D * c.K + 7) / 8

/-- Two consecutive 0 bits occur nowhere in the sequence (R90). -/
def noDoubleZero : List Bit → Bool
  | false :: false :: _ => false
  | _ :: rest => noDoubleZero rest
  | [] => true

/-- The shape of a codeword (R90). -/
def isCodeword (maxLen : Nat) (w : List Bit) : Bool :=
  decide (1 ≤ w.length) && decide (w.length ≤ maxLen) && w.head? == some true
    && w.getLast? == some true && noDoubleZero w

/-- A well-formed configuration: the constraints of R8 (with the geometry assertion of R146), the
collaborator signatures of R9, the text table of R90 and the TXTSTAT bound of R31. -/
structure Config.WF (c : Config) : Prop where
  frame_bits : c.U + c.T + c.B = c.F
  D_pos : 1 ≤ c.D
  S_pos : 1 ≤ c.S
  K_pos : 1 ≤ c.K
  B_pos : 1 ≤ c.B
  data_capacity : c.K ≤ c.ND
  coded_capacity : c.ND ≤ c.NC
  coded_bits : c.B + c.PADN = c.NC
  depth_field : c.D ≤ 255
  parity_field : c.NPCHK ≤ 65535
  iter_field : c.ITER_MAX ≤ 65535
  speech_field : c.N_SPEECH ≤ 65535
  out_bytes_field : c.OUT_BYTES ≤ 65536
  uw_length : c.UW.length = c.U
  ref_length : c.REF.length = c.D * c.K
  pi_lt : ∀ k < c.N, c.PI k < c.N
  pi_inj : ∀ k < c.N, ∀ l < c.N, c.PI k = c.PI l → k = l
  s2l_length : ∀ sym amp esno mean, (c.S2L sym amp esno mean).length = c.B
  s2l_width : ∀ sym amp esno mean, ∀ x ∈ c.S2L sym amp esno mean, x < 2 ^ c.LLR_W
  dec_length : ∀ full, (c.DEC full).bits.length = c.ND
  dec_iter : ∀ full, (c.DEC full).iter ≤ c.ITER_MAX
  dec_pcc : ∀ full, (c.DEC full).pcc ≤ c.NPCHK
  pad_width : c.LLR_PAD < 2 ^ c.LLR_W
  table_codewords : ∀ e ∈ c.TXT_TABLE, isCodeword c.TXT_CODE_MAX e.2 = true
  table_chars : (c.TXT_TABLE.map Prod.fst).Nodup
  table_distinct : (c.TXT_TABLE.map Prod.snd).Nodup
  code_max_pos : 1 ≤ c.TXT_CODE_MAX
  code_max_field : c.TXT_CODE_MAX + 2 ≤ 255
  trial_bound : c.TRIAL_ITER_MAX ≤ c.ITER_MAX

/-- The well-formed configurations: an instance with an ill-formed one does not exist (R8, R146). -/
abbrev WFConfig := { c : Config // c.WF }

/-! ### The toy configuration T1 of spec/95_test_vectors.md, Part 0 -/

/-- T1's `S2L`: a 2-bit symbol gives two LLRs, negative (16-bit two's complement) for a 1. -/
def toyS2L (sym amp : List Code) (_esno : BitVec 16) (_mean : Code) : List Code :=
  (List.range 8).map fun n =>
    let a := amp.getD (n / 2) 0 % 65536
    if (sym.getD (n / 2) 0).testBit (if n % 2 = 0 then 1 else 0) then (65536 - a) % 65536 else a

/-- T1's `DEC`: hard decisions, four parity equations, no correction. -/
def toyDEC (full : List Code) : DecResult :=
  let h := fun i => decide (32768 ≤ full.getD i 0)
  let pcc := ((List.range 4).filter fun i => h (6 + i) == (h i ^^ h (i + 1))).length
  { bits := (List.range 6).map h, iter := if pcc = 4 then 1 else 15, pcc := pcc }

/-- T1 with the text table T0; -100 as a 16-bit pattern is 65436. -/
def Config.t1 : Config where
  D := 2
  K := 4
  B := 8
  S := 4
  U := 3
  T := 2
  F := 13
  ND := 6
  NC := 10
  NPCHK := 4
  N_SPEECH := 320
  ITER_MAX := 15
  UW := [true, false, true]
  REF := [true, false, true, true, false, true, true, false]
  PI := fun k => 3 * k % 8
  S2L := toyS2L
  DEC := toyDEC
  LLR_PAD := 65436
  TXT_TABLE :=
    [(0x20, [true]), (0x65, [true, true]), (0x74, [true, false, true]),
     (0x6F, [true, true, true]), (0x61, [true, false, true, true])]
  TXT_CODE_MAX := 10
  TRIAL_ITER_MAX := 15
  ESNO_DEFAULT := 0
  SQTH_DEFAULT := 0
  SYM_W := 2
  AMP_W := 8
  LLR_W := 16
  uwerrWide := fun _ => 0

theorem toyS2L_bound (sym amp : List Code) (esno : BitVec 16) (mean : Code) :
    ∀ x ∈ toyS2L sym amp esno mean, x < 2 ^ 16 := by
  intro x hx
  simp only [toyS2L, List.mem_map] at hx
  obtain ⟨n, -, rfl⟩ := hx
  have low : ∀ a : Nat, a % 65536 < 2 ^ 16 := fun a => Nat.mod_lt a (by decide)
  split <;> split <;> exact low _

theorem toyDEC_pcc (full : List Code) : (toyDEC full).pcc ≤ 4 := by
  simpa [toyDEC] using List.length_filter_le
    (fun i => decide (32768 ≤ full.getD (6 + i) 0) ==
      (decide (32768 ≤ full.getD i 0) ^^ decide (32768 ≤ full.getD (i + 1) 0))) (List.range 4)

theorem toyDEC_iter (full : List Code) : (toyDEC full).iter ≤ 15 := by
  simp only [toyDEC]
  split <;> decide

/-- T1 meets every constraint, so a well-formed configuration exists. -/
theorem Config.t1_wf : Config.t1.WF where
  frame_bits := by decide
  D_pos := by decide
  S_pos := by decide
  K_pos := by decide
  B_pos := by decide
  data_capacity := by decide
  coded_capacity := by decide
  coded_bits := by decide
  depth_field := by decide
  parity_field := by decide
  iter_field := by decide
  speech_field := by decide
  out_bytes_field := by decide
  uw_length := by decide
  ref_length := by decide
  pi_lt := by decide
  pi_inj := by decide
  s2l_length := fun _ _ _ _ => by simp [Config.t1, toyS2L]
  s2l_width := toyS2L_bound
  dec_length := fun _ => by simp [Config.t1, toyDEC]
  dec_iter := toyDEC_iter
  dec_pcc := toyDEC_pcc
  pad_width := by decide
  table_codewords := by decide
  table_chars := by decide
  table_distinct := by decide
  code_max_pos := by decide
  code_max_field := by decide
  trial_bound := by decide

/-- The open instance. It has no body: nothing in Lean can evaluate it, and its argument, which only
says that a well-formed configuration exists, gives it no value (assumption log 1). -/
opaque Config.chosen [Inhabited WFConfig] : WFConfig

/-- The configuration of the machine, any well-formed one. -/
def Config.cfg : Config := (@Config.chosen ⟨⟨Config.t1, Config.t1_wf⟩⟩).val

/-- All that is known of the machine's configuration: it is well-formed. -/
theorem Config.cfg_wf : Config.cfg.WF := (@Config.chosen ⟨⟨Config.t1, Config.t1_wf⟩⟩).property

end Sys2Proof
end

