-- ==== Sys2Proof/Syntax.lean ====
section
/-! DEFINITION. The instructions of FDI: one constructor for each row of spec/opcode_table.json,
the seven host commands (spec/30_encoding.md R61) and the eleven sequencer phases (R70). -/

namespace Sys2Proof

inductive Instr where
  /-- R80. -/
  | nop
  /-- R81: session reset. -/
  | srst
  /-- R82: write configuration register `csr`. -/
  | csrw (csr : BitVec 8) (value : BitVec 16)
  /-- R83: read register `csr`. -/
  | csrr (csr : BitVec 8)
  /-- R84: read byte `index` of the output-bit buffer. -/
  | rdb (index : BitVec 16)
  /-- R85: receive one frame; the two physical-layer states of R63. -/
  | rxf (phyGate phyPost : BitVec 2)
  /-- R86: fill the text-bit slots of a transmit batch. -/
  | txt
  /-- R70 code 0x0: wait for a command, decode it (R76). -/
  | idle
  /-- R101: start of a receive call. -/
  | gate
  /-- R102: shift-and-append. -/
  | shap
  /-- R112: interleaver sync step. -/
  | isyn
  /-- R113: window-full check. -/
  | wchk
  /-- R120: FEC decode of sub-frame `SUBF`. -/
  | dsub
  /-- R95: text-decode slot `SLOT`. -/
  | tdec
  /-- R130: unique-word error accounting. -/
  | uwer
  /-- R114: advance at the end of a receive call. -/
  | adv
  /-- R134: verdict and response. -/
  | verd
  /-- R93: text-encode slot `SLOT`. -/
  | tenc
deriving DecidableEq, Repr

/-- The host commands of R61; every other instruction is a sequencer phase (R70). -/
def Instr.isCommand : Instr → Bool
  | .nop | .srst | .csrw _ _ | .csrr _ | .rdb _ | .rxf _ _ | .txt => true
  | .idle | .gate | .shap | .isyn | .wchk | .dsub | .tdec | .uwer | .adv | .verd | .tenc => false

end Sys2Proof
end

