-- ==== Sys2Proof/WellFormed.lean ====
section
/-! DEFINITION. When a host command is well-formed: it passes every operand check of
spec/30_encoding.md R76. An ill-formed command still has an encoding and a meaning: the error of
spec/60_exceptions.md R143 or R144. A sequencer phase has no operand and is always well-formed. -/

namespace Sys2Proof

/-- R82: the writable registers are 0x00 to 0x03. R83: the readable ones are 0x00 to 0x0D.
R84: the byte index is below OUT_BYTES. R64: state code 3 is reserved. -/
def Instr.wellFormed (c : Config) : Instr → Bool
  | .csrw csr _ => decide (csr.toNat ≤ 0x03)
  | .csrr csr => decide (csr.toNat ≤ 0x0D)
  | .rdb index => decide (index.toNat < c.OUT_BYTES)
  | .rxf phyGate phyPost => phyGate != Phy.reserved && phyPost != Phy.reserved
  | .nop | .srst | .txt => true
  | .idle | .gate | .shap | .isyn | .wchk | .dsub | .tdec | .uwer | .adv | .verd | .tenc => true

end Sys2Proof
end

