-- ==== Sys2Proof/Decode.lean ====
section
/-! DEFINITION. Decoding: the opcode map of spec/30_encoding.md R61 as a table of rows, the phase
codes of R70, the operand checks of R76, and the encoder written from the same tables. -/

namespace Sys2Proof

/-- Why a decoding is refused. -/
inductive DecodeError where
  /-- The word matches no row of R61 (R65): the host error IllegalCommand, a next state. -/
  | illegalCommand
  /-- A sequencer code of 0xB to 0xF, never reached (R70). -/
  | reservedPhase
deriving DecidableEq, Repr

/-- The three host-interface errors (spec/60_exceptions.md R140). -/
inductive HostError where
  | illegalCommand
  | badCsr
  | badOperand
deriving DecidableEq, Repr

/-- Field `op` of format C, bits 31:24 (R60). -/
def fieldOp (w : Word) : BitVec 8 := w.extractLsb' 24 8

/-- Field `f` of format C, bits 23:16 (R60). -/
def fieldF (w : Word) : BitVec 8 := w.extractLsb' 16 8

/-- Field `imm` of format C, bits 15:0 (R60). -/
def fieldImm (w : Word) : BitVec 16 := w.extractLsb' 0 16

/-- `phy_gate`, word bits 17:16 (R63). -/
def fieldGate (w : Word) : BitVec 2 := w.extractLsb' 16 2

/-- `phy_post`, word bits 19:18 (R63). -/
def fieldPost (w : Word) : BitVec 2 := w.extractLsb' 18 2

/-- A row of the opcode map (R61). -/
structure Row where
  mask : Word
  pattern : Word
  build : Word → Instr

/-- The opcode map, row by row as R61 prints it. -/
def commandRows : List Row :=
  [{ mask := 0xFFFFFFFF, pattern := 0x00000000, build := fun _ => .nop },
   { mask := 0xFFFFFFFF, pattern := 0x01000000, build := fun _ => .srst },
   { mask := 0xFF000000, pattern := 0x02000000, build := fun w => .csrw (fieldF w) (fieldImm w) },
   { mask := 0xFF00FFFF, pattern := 0x03000000, build := fun w => .csrr (fieldF w) },
   { mask := 0xFFFF0000, pattern := 0x04000000, build := fun w => .rdb (fieldImm w) },
   { mask := 0xFFF0FFFF, pattern := 0x10000000, build := fun w => .rxf (fieldGate w) (fieldPost w) },
   { mask := 0xFFFFFFFF, pattern := 0x11000000, build := fun _ => .txt }]

/-- `(word AND mask) == match` (R61). -/
def Row.selects (r : Row) (w : Word) : Bool := w &&& r.mask == r.pattern

/-- Decode a command word: the row it matches, or IllegalCommand (R61, R65, R76). -/
def decodeCommand (w : Word) : Except DecodeError Instr :=
  match commandRows.find? (fun r => r.selects w) with
  | some r => .ok (r.build w)
  | none => .error .illegalCommand

/-- Decode the value of `SEQ` (R70). -/
def decodePhase (p : BitVec 4) : Except DecodeError Instr :=
  match p.toNat with
  | 0x0 => .ok .idle
  | 0x1 => .ok .gate
  | 0x2 => .ok .shap
  | 0x3 => .ok .isyn
  | 0x4 => .ok .wchk
  | 0x5 => .ok .dsub
  | 0x6 => .ok .tdec
  | 0x7 => .ok .uwer
  | 0x8 => .ok .adv
  | 0x9 => .ok .verd
  | 0xA => .ok .tenc
  | _ => .error .reservedPhase

/-- The decoder, total on both kinds of code. -/
def decode : Encoded → Except DecodeError Instr
  | .command w => decodeCommand w
  | .phase p => decodePhase p

/-- The operand checks of R76 on a decoded command: the error it raises, if any. CSRW takes the
indices 0x00 to 0x03 (R82), CSRR 0x00 to 0x0D (R83), RDB a byte below OUT_BYTES (R84), RXF no
reserved state code (R64). -/
def operandError (c : Config) : Instr → Option HostError
  | .csrw csr _ => if 0x03 < csr.toNat then some .badCsr else none
  | .csrr csr => if 0x0D < csr.toNat then some .badCsr else none
  | .rdb index => if c.OUT_BYTES ≤ index.toNat then some .badOperand else none
  | .rxf phyGate phyPost =>
    if phyGate = Phy.reserved ∨ phyPost = Phy.reserved then some .badOperand else none
  | .nop | .srst | .txt => none
  | .idle | .gate | .shap | .isyn | .wchk | .dsub | .tdec | .uwer | .adv | .verd | .tenc => none

/-- A word of format C from its three fields (R60). -/
def formatC (op f : BitVec 8) (imm : BitVec 16) : Word := op ++ f ++ imm

/-- The encoder (R61, R63, R70). -/
def encode : Instr → Encoded
  | .nop => .command (formatC 0x00 0 0)
  | .srst => .command (formatC 0x01 0 0)
  | .csrw csr value => .command (formatC 0x02 csr value)
  | .csrr csr => .command (formatC 0x03 csr 0)
  | .rdb index => .command (formatC 0x04 0 index)
  | .rxf phyGate phyPost => .command (formatC 0x10 ((0 : BitVec 4) ++ phyPost ++ phyGate) 0)
  | .txt => .command (formatC 0x11 0 0)
  | .idle => .phase Phase.idle
  | .gate => .phase Phase.gate
  | .shap => .phase Phase.shap
  | .isyn => .phase Phase.isyn
  | .wchk => .phase Phase.wchk
  | .dsub => .phase Phase.dsub
  | .tdec => .phase Phase.tdec
  | .uwer => .phase Phase.uwer
  | .adv => .phase Phase.adv
  | .verd => .phase Phase.verd
  | .tenc => .phase Phase.tenc

/-- What the decoder reads from a row of spec/opcode_table.json: a row of at most 8 bits is a value
of `SEQ`, a longer one a command word (assumption log 14). -/
def decodeTableWord (nbits w : Nat) : Option Instr :=
  let read := fun e => match decode e with
    | .ok i => some i
    | .error _ => none
  if nbits ≤ 8 then
    if w < 16 then read (.phase (BitVec.ofNat 4 w)) else none
  else if w < 2 ^ 32 then read (.command (BitVec.ofNat 32 w)) else none

end Sys2Proof
end

