-- ==== Sys2Proof/Machine/State.lean ====
section
/-! DEFINITION. The state of FDI as plain data: every register and storage space of
spec/10_state.md, the scratch of the command in progress (R28), the queues and pins of the interface
(spec/30_encoding.md R75) and the trace of everything FDI sent. Reset is spec/10_state.md R35. -/

namespace Sys2Proof.Machine

/-- Why the machine stops. -/
inductive Fault where
  /-- Raised by `step` alone, when `SEQ` holds a code 0xB to 0xF, which R70 says is never reached.
  Safe: no run of the hardware is in such a state. -/
  | reservedPhase
deriving DecidableEq, Repr

/-- Why an instruction has no meaning. -/
inductive Refusal where
  /-- Raised by `exec` for an instruction without a meaning yet, under its mnemonic. Safe. No arm
  of `exec` answers it: every instruction has its meaning. -/
  | notModelled (mnemonic : String)
deriving DecidableEq, Repr

/-- What FDI sent to the outside, one entry for each transfer or collaborator invocation. -/
inductive Event where
  /-- The response `(err, word)` of a command (R66). -/
  | response (err : Bool) (word : Word)
  /-- A text bit on `tbo` (R68). -/
  | textBit (b : Bit)
  /-- A request to the character source with its context, and the answer (R68). -/
  | sourceCall (ctx : BitVec 16) (answer : Option Char8)
  /-- A character delivered to the sink with its context (R68). -/
  | sinkCall (ch : Char8) (ctx : BitVec 16)
  /-- An invocation of `S2L` (R69). -/
  | s2lCall (sym amp : List Code) (esno : BitVec 16) (mean : Code)
  /-- An invocation of `DEC` (R69). -/
  | decCall (full : List Code)
deriving DecidableEq, Repr

/-- The scratch of the `RXF` in progress (R28): its operands and the `din` items taken so far, whose
number is the input stream position of R33. Between commands it is `Latch.empty`. -/
structure Latch where
  gate : BitVec 2
  post : BitVec 2
  items : List Code
deriving DecidableEq, Repr

def Latch.empty : Latch := { gate := 0, post := 0, items := [] }

/-- The outside of the machine (R75): what it has queued for FDI and what it accepts now. -/
structure Env where
  /-- Command words offered and not yet accepted, the next one first. -/
  cmd : List Word
  /-- `din` items queued and not yet taken, the next one first (R67). -/
  din : List Code
  /-- What the character source will answer to the coming requests, in order (R92). -/
  txc : List (Option Char8)
  rspReady : Bool
  tboReady : Bool
  rxcReady : Bool
  /-- `S2L` and `DEC` answer an invocation made now (R69, R168). -/
  s2lReady : Bool
  decReady : Bool
  /-- The reset pin (R160). -/
  rst : Bool
deriving DecidableEq, Repr

/-- Nothing queued, everything accepted, no reset. -/
def Env.quiet : Env :=
  { cmd := [], din := [], txc := [], rspReady := true, tboReady := true, rxcReady := true,
    s2lReady := true, decReady := true, rst := false }

structure State where
  /-- `WIN_SYM`, index 0 the oldest symbol (R14). -/
  winSym : List Code
  /-- `WIN_AMP` (R14). -/
  winAmp : List Code
  /-- `ILV_SYNCED` (R16). -/
  ilvSynced : Bool
  /-- `FCI` (R17). -/
  fci : Nat
  /-- `TX_BITS`, index 0 sent first (R18). -/
  txBits : List Bit
  /-- `TX_IDX` (R18). -/
  txIdx : Nat
  /-- `TX_N` (R18). -/
  txN : Nat
  /-- `RX_IN` (R19). -/
  rxIn : Bool
  /-- `RX_CODE`, first received bit first; its length is `RX_LEN` (R19). -/
  rxCode : List Bit
  /-- `TBITS`, `TERRS`, `TBITSC`, `TERRSC` (R20). -/
  tbits : BitVec 32
  terrs : BitVec 32
  tbitsc : BitVec 32
  terrsc : BitVec 32
  /-- `OUTBUF` (R22). -/
  outbuf : List Bit
  /-- `PHY`, `NIN` (R23). -/
  phy : BitVec 2
  nin : BitVec 16
  /-- `PCC`, `ITER` (R24). -/
  pcc : BitVec 16
  iter : BitVec 16
  /-- `UWERR`, `DECODED` (R25). -/
  uwerr : BitVec 16
  decoded : Bool
  /-- `ERR` (R26). -/
  err : BitVec 4
  /-- `CTRL`, its four defined bits (R27). -/
  ctrl : BitVec 4
  /-- `SQTH`, `ESNO`, `CBCTX` (R27). -/
  sqth : BitVec 16
  esno : BitVec 16
  cbctx : BitVec 16
  /-- `SEQ`, `SUBF`, `SLOT` (R29). -/
  seq : BitVec 4
  subf : Nat
  slot : Nat
  /-- Scratch of the command in progress (R28). -/
  lat : Latch
  /-- The outside of the machine, not the spec's state (assumption log 3). -/
  env : Env
  /-- Everything sent so far, oldest first, not the spec's state (assumption log 4). -/
  trace : List Event
deriving DecidableEq, Repr

/-- The reset values of R35 on configuration `c`, with a quiet outside and an empty trace. -/
def State.resetOn (c : Config) : State where
  winSym := List.replicate c.N 0
  winAmp := List.replicate c.N 0
  ilvSynced := false
  fci := 0
  txBits := List.replicate (c.TXT_CODE_MAX + 2) false
  txIdx := 0
  txN := 0
  rxIn := false
  rxCode := []
  tbits := 0
  terrs := 0
  tbitsc := 0
  terrsc := 0
  outbuf := List.replicate (c.D * c.K) false
  phy := Phy.searching
  nin := 0
  pcc := 0
  iter := 0
  uwerr := 0
  decoded := false
  err := 0
  ctrl := 0
  sqth := c.SQTH_DEFAULT
  esno := c.ESNO_DEFAULT
  cbctx := 0
  seq := Phase.idle
  subf := 0
  slot := 0
  lat := Latch.empty
  env := Env.quiet
  trace := []

/-- The machine right after reset (R35, R160). -/
def State.reset : State := State.resetOn Config.cfg

/-- The canonical form of the storage spaces `WIN_SYM`, `WIN_AMP` and `OUTBUF` (R14, R15, R22):
each holds exactly its elements, each element within its width. -/
abbrev Memory.wf (c : Config) (s : State) : Prop :=
  s.winSym.length = c.N ∧ s.winAmp.length = c.N ∧ s.outbuf.length = c.D * c.K
    ∧ (∀ x ∈ s.winSym, x < 2 ^ c.SYM_W) ∧ (∀ x ∈ s.winAmp, x < 2 ^ c.AMP_W)

end Sys2Proof.Machine
end

