-- ==== Sys2Proof/Machine/Operands.lean ====
section
/-! DEFINITION. Operand forms: the fields of the `din` items (spec/30_encoding.md R67), the mode
bits (spec/10_state.md R27), the deinterleaved view (spec/42_rx_window.md R104), the CSR read views
and writes (spec/10_state.md R31, R32) and the byte view of OUTBUF (spec/20_memory.md R45). -/

namespace Sys2Proof.Machine

/-! ### Mode bits (R27) -/

def State.testMode (s : State) : Bool := s.ctrl.getLsbD 0
def State.sqEn (s : State) : Bool := s.ctrl.getLsbD 1
def State.sinkEn (s : State) : Bool := s.ctrl.getLsbD 2
def State.srcEn (s : State) : Bool := s.ctrl.getLsbD 3

/-! ### The items of an `RXF` (R67) -/

/-- How many `din` items an `RXF` consumes: 2 when searching, `3 + U + 2*S + T` otherwise. -/
def neededItems (c : Config) (phyGate : BitVec 2) : Nat :=
  if phyGate = Phy.searching then 2 else 3 + c.U + 2 * c.S + c.T

/-- Item `k` as latched. -/
def item (s : State) (k : Nat) : Code := s.lat.items.getD k 0

/-- `in.nin_cur`: bits 15:0 of `hdr0`. -/
def inNinCur (s : State) : BitVec 16 := BitVec.ofNat 16 (item s 0)

/-- `in.nin_next`: bits 31:16 of `hdr0`. -/
def inNinNext (s : State) : BitVec 16 := BitVec.ofNat 16 (item s 0 >>> 16)

/-- `in.snr_est`: bits 15:0 of `hdr1`. -/
def inSnrEst (s : State) : BitVec 16 := BitVec.ofNat 16 (item s 1)

/-- `in.mean_amp`: the low `AMP_W` bits of `mean`. -/
def inMeanAmp (c : Config) (s : State) : Code := item s 2 % 2 ^ c.AMP_W

/-- `n` consecutive items from position `k`. -/
def itemsFrom (s : State) (k n : Nat) : List Code := (s.lat.items.drop k).take n

/-- `in.uw[0..U-1]`: bit 0 of each item. -/
def inUw (c : Config) (s : State) : List Bit := (itemsFrom s 3 c.U).map (·.testBit 0)

/-- `in.sym[0..S-1]`: the low `SYM_W` bits of each item. -/
def inSym (c : Config) (s : State) : List Code :=
  (itemsFrom s (3 + c.U) c.S).map (· % 2 ^ c.SYM_W)

/-- `in.amp[0..S-1]`: the low `AMP_W` bits of each item. -/
def inAmp (c : Config) (s : State) : List Code :=
  (itemsFrom s (3 + c.U + c.S) c.S).map (· % 2 ^ c.AMP_W)

/-- `in.txt[0..T-1]`: bit 0 of each item. -/
def inTxt (c : Config) (s : State) : List Bit :=
  (itemsFrom s (3 + c.U + 2 * c.S) c.T).map (·.testBit 0)

/-! ### Storage spaces (R41, R45, R104, R125) -/

/-- `MemRead(space, i)` of an element that is there; R42 says every index is (log 13). -/
def memRead (space : List Code) (i : Nat) : Code := space.getD i 0

/-- `DE_SYM(k)` (R104). -/
def deSym (c : Config) (s : State) (k : Nat) : Code := memRead s.winSym (c.PI k)

/-- `DE_AMP(k)` (R104). -/
def deAmp (c : Config) (s : State) (k : Nat) : Code := memRead s.winAmp (c.PI k)

/-- `bit(x)` of R84: `OUTBUF[x]`, 0 beyond the buffer. -/
def outBit (s : State) (x : Nat) : Bit := s.outbuf.getD x false

/-- Byte `n` of OUTBUF, the earliest bit the most significant (R45). -/
def outByte (s : State) (n : Nat) : BitVec 8 :=
  BitVec.ofBoolListBE ((List.range 8).map fun b => outBit s (8 * n + b))

/-- `MemWrite(space, i, x)`. -/
def memWrite (space : List Bit) (i : Nat) (x : Bit) : List Bit := space.set i x

/-- Elements `i`, `i + 1`, … written in order. -/
def memWriteBlock (space : List Bit) (i : Nat) : List Bit → List Bit
  | [] => space
  | x :: rest => memWriteBlock (memWrite space i x) (i + 1) rest

/-! ### Control and status registers (R31, R32) -/

/-- STATUS: PHY 1:0, ILV_SYNCED 2, DECODED 3, ERR 7:4, FCI 15:8. -/
def statusView (s : State) : Word :=
  (0 : BitVec 16) ++ BitVec.ofNat 8 s.fci ++ s.err ++ BitVec.ofBool s.decoded
    ++ BitVec.ofBool s.ilvSynced ++ s.phy

/-- TXTSTAT: TX_N 7:0, TX_IDX 15:8, RX_IN 16, len(RX_CODE) 31:24. -/
def txtstatView (s : State) : Word :=
  BitVec.ofNat 8 s.rxCode.length ++ (0 : BitVec 7) ++ BitVec.ofBool s.rxIn
    ++ BitVec.ofNat 8 s.txIdx ++ BitVec.ofNat 8 s.txN

/-- The 32-bit read view of a CSR; `none` for the undefined indices. -/
def csrView (s : State) (csr : BitVec 8) : Option Word :=
  match csr.toNat with
  | 0x00 => some (s.ctrl.zeroExtend 32)
  | 0x01 => some (s.sqth.zeroExtend 32)
  | 0x02 => some (s.esno.zeroExtend 32)
  | 0x03 => some (s.cbctx.zeroExtend 32)
  | 0x04 => some (statusView s)
  | 0x05 => some (s.pcc.zeroExtend 32)
  | 0x06 => some (s.iter.zeroExtend 32)
  | 0x07 => some (s.nin.zeroExtend 32)
  | 0x08 => some (s.uwerr.zeroExtend 32)
  | 0x09 => some s.tbits
  | 0x0A => some s.terrs
  | 0x0B => some s.tbitsc
  | 0x0C => some s.terrsc
  | 0x0D => some (txtstatView s)
  | _ => none

/-- The state after a write of one of the four writable CSRs; `none` for every other index. CTRL
keeps bits 3:0. -/
def csrWritten (s : State) (csr : BitVec 8) (value : BitVec 16) : Option State :=
  match csr.toNat with
  | 0x00 => some { s with ctrl := value.extractLsb' 0 4 }
  | 0x01 => some { s with sqth := value }
  | 0x02 => some { s with esno := value }
  | 0x03 => some { s with cbctx := value }
  | _ => none

end Sys2Proof.Machine
end

