-- ==== Sys2Proof/Machine/Flags.lean ====
section
/-! DEFINITION. Counter arithmetic, the status predicates and the verdict
(spec/45_stats_verdict.md R131 to R135; spec/10_state.md R30). -/

namespace Sys2Proof.Machine

/-- `satadd32` (R131). -/
def satadd32 (a : BitVec 32) (b : Nat) : BitVec 32 := BitVec.ofNat 32 (min (a.toNat + b) (2 ^ 32 - 1))

/-- The number of positions at which two bit sequences differ (R126, R130). -/
def mismatches (xs ys : List Bit) : Nat := (List.zip xs ys).countP fun p => p.1 != p.2

/-- `UWERR` for a count of errors (R130); a count that does not fit 16 bits leaves a free value
(assumption log 9). -/
def uwerrField (c : Config) (e : Nat) : BitVec 16 :=
  if e < 2 ^ 16 then BitVec.ofNat 16 e else c.uwerrWide e

/-- All parity checks of the most recent decode passed: `PCC == NPCHK`. -/
def allChecksPass (c : Config) (s : State) : Bool := s.pcc.toNat == c.NPCHK

/-- The window is full and synchronised (R113). -/
def windowReady (c : Config) (s : State) : Bool := s.ilvSynced && s.fci == c.D

/-- The `sync` predicate (R132). -/
def syncPredicate (c : Config) (s : State) (phyPost : BitVec 2) : Bool :=
  phyPost == Phy.synced || (phyPost == Phy.trial && allChecksPass c s)

/-- The squelch comparison, signed and strict (R133). -/
def belowThreshold (snr sqth : BitVec 16) : Bool := decide (snr.toInt < sqth.toInt)

/-- The validity verdict (R66, R134). -/
inductive Verdict where
  | pass
  | muted
  | good
  | marginal
deriving DecidableEq, Repr

/-- The verdict codes -1, 0, 1, 2 in three bits (R66). -/
def Verdict.code : Verdict → BitVec 3
  | .pass => 0b111
  | .muted => 0b000
  | .good => 0b001
  | .marginal => 0b010

/-- Verdict and output sample count (R134). -/
def verdictOf (c : Config) (s : State) : Verdict × BitVec 16 :=
  if syncPredicate c s s.lat.post then
    if s.sqEn && belowThreshold (inSnrEst s) s.sqth then (.muted, 0)
    else if !s.sqEn || allChecksPass c s then (.good, BitVec.ofNat 16 c.N_SPEECH)
    else (.marginal, BitVec.ofNat 16 c.N_SPEECH)
  else if s.sqEn then (.muted, 0)
  else (.pass, inNinCur s)

/-- The response word of `RXF`: nout 15:0, verdict 18:16, decoded 19 (R66). -/
def rxfWord (nout : BitVec 16) (v : Verdict) (decoded : Bool) : Word :=
  (0 : BitVec 12) ++ BitVec.ofBool decoded ++ v.code ++ nout

end Sys2Proof.Machine
end

