-- ==== Sys2Proof/Machine/Ops.lean ====
section
/-! DEFINITION. The operations the meanings share: sending, responding, raising a host error
(spec/60_exceptions.md R141), reset (spec/70_reset_and_hazards.md R160), dropping interleaver sync
(spec/42_rx_window.md R101) and the FEC pipeline (spec/44_fec_pipeline.md R121 to R123). -/

namespace Sys2Proof.Machine

/-- Record transfers and invocations in their order. -/
def State.send (s : State) (es : List Event) : State := { s with trace := s.trace ++ es }

/-- `respond(word)` (R66). -/
def respond (w : Word) (s : State) : State := s.send [.response false w]

/-- The error codes of R140. -/
def errorCode : HostError → BitVec 4
  | .illegalCommand => 1
  | .badCsr => 2
  | .badOperand => 3

/-- Error entry (R141): the first code sticks in ERR, the response carries the code, nothing else
happens and SEQ stays where it is. There is no return from it (R149). -/
def raiseError (e : HostError) (s : State) : State :=
  { s with err := if s.err = 0 then errorCode e else s.err }.send
    [.response true ((errorCode e).zeroExtend 32)]

/-- Every piece of state at its reset value (R35, R160); the outside and what was sent stay. -/
def State.sessionReset (c : Config) (s : State) : State :=
  { State.resetOn c with env := s.env, trace := s.trace }

/-- `SEQ <- phase` (R29). -/
def State.goto (s : State) (p : BitVec 4) : State := { s with seq := p }

/-- Interleaver sync dropped because the physical layer is searching (R101, R114). -/
def State.dropSync (s : State) : State :=
  { s with ilvSynced := false, fci := 0, pcc := 0, iter := 0 }

/-- `Pad` (R122, R123). -/
def pad (c : Config) (llr : List Code) : List Code :=
  if c.ND = c.K then llr
  else llr.take c.K ++ List.replicate c.PADN c.LLR_PAD ++ llr.drop c.K

/-- `sub_sym` of sub-frame `j` (R121). -/
def subSym (c : Config) (s : State) (j : Nat) : List Code :=
  (List.range c.S).map fun i => deSym c s (j * c.S + i)

/-- `sub_amp` of sub-frame `j` (R121). -/
def subAmp (c : Config) (s : State) (j : Nat) : List Code :=
  (List.range c.S).map fun i => deAmp c s (j * c.S + i)

/-- The padded LLR array of sub-frame `j`: steps 1 and 2 of `FecDecode` (R121). -/
def fullLlr (c : Config) (s : State) (j : Nat) : List Code :=
  pad c (c.S2L (subSym c s j) (subAmp c s j) s.esno (inMeanAmp c s))

/-- `FecDecode(j)` (R121). -/
def fecDecode (c : Config) (s : State) (j : Nat) : DecResult := c.DEC (fullLlr c s j)

/-- The two invocations `FecDecode(j)` makes, in order (R52). -/
def fecEvents (c : Config) (s : State) (j : Nat) : List Event :=
  [.s2lCall (subSym c s j) (subAmp c s j) s.esno (inMeanAmp c s), .decCall (fullLlr c s j)]

/-- One decoder invocation with its effect on ITER and PCC (R112, R120, R124). -/
def State.decodeSub (c : Config) (s : State) (j : Nat) : State :=
  let r := fecDecode c s j
  { s with iter := BitVec.ofNat 16 r.iter, pcc := BitVec.ofNat 16 r.pcc }.send (fecEvents c s j)

end Sys2Proof.Machine
end

