-- ==== Sys2Proof/Machine/FecPipeline.lean ====
section
/-! DEFINITION. DSUB (spec/44_fec_pipeline.md R120, R124 to R126). -/

namespace Sys2Proof.Machine

/-- The payload bits of a decode: the first `K` (R124). -/
def payload (c : Config) (r : DecResult) : List Bit := r.bits.take c.K

/-- The reference bits of sub-frame `j` (R126). -/
def refBits (c : Config) (j : Nat) : List Bit := (c.REF.drop (j * c.K)).take c.K

/-- The use of a sub-frame's payload: stored (R125), or in test mode scored (R126). -/
def useDecoded (c : Config) (j : Nat) (bits : List Bit) (s : State) : State :=
  if s.testMode then
    { s with
      terrsc := satadd32 s.terrsc (mismatches bits (refBits c j))
      tbitsc := satadd32 s.tbitsc c.K }
  else { s with outbuf := memWriteBlock s.outbuf (j * c.K) bits }

/-- The next phase after sub-frame `SUBF` (R120). -/
def dsubAdvance (c : Config) (s : State) : State :=
  if s.subf + 1 < c.D then { s with subf := s.subf + 1 }.goto Phase.dsub
  else { s with subf := 0 }.goto Phase.tdec

/-- DSUB for `j = SUBF` (R120). A SUBF that is no sub-frame ends the loop (R71, log 10). -/
def dsub (c : Config) (s : State) : State :=
  if s.subf < c.D then
    dsubAdvance c (useDecoded c s.subf (payload c (fecDecode c s s.subf)) (s.decodeSub c s.subf))
  else { s with subf := 0 }.goto Phase.tdec

def execDsub (s : State) (c : Config := Config.cfg) : Host.Outcome State Fault Refusal :=
  .next (dsub c s)

end Sys2Proof.Machine
end

