-- ==== Sys2Proof/Machine/HostCommands.lean ====
section
/-! DEFINITION. The host commands (spec/40_host_commands.md R80 to R86) and IDLE, the phase that
accepts, decodes and starts them (spec/30_encoding.md R70, R76). -/

namespace Sys2Proof.Machine

/-- NOP (R80). -/
def execNop (s : State) : Host.Outcome State Fault Refusal := .next (respond 0 s)

/-- SRST (R81, R161): the state of hardware reset, then the response. -/
def execSrst (s : State) (c : Config := Config.cfg) : Host.Outcome State Fault Refusal :=
  .next (respond 0 (s.sessionReset c))

/-- CSRW (R82). -/
def csrw (csr : BitVec 8) (value : BitVec 16) (s : State) : State :=
  match csrWritten s csr value with
  | some s1 => respond 0 s1
  | none => raiseError .badCsr s

def execCsrw (csr : BitVec 8) (value : BitVec 16) (s : State) : Host.Outcome State Fault Refusal :=
  .next (csrw csr value s)

/-- CSRR (R83). -/
def csrr (csr : BitVec 8) (s : State) : State :=
  match csrView s csr with
  | some w => respond w s
  | none => raiseError .badCsr s

def execCsrr (csr : BitVec 8) (s : State) : Host.Outcome State Fault Refusal := .next (csrr csr s)

/-- RDB (R84). -/
def rdb (c : Config) (index : BitVec 16) (s : State) : State :=
  if c.OUT_BYTES ≤ index.toNat then raiseError .badOperand s
  else respond ((outByte s index.toNat).zeroExtend 32) s

def execRdb (index : BitVec 16) (s : State) (c : Config := Config.cfg) :
    Host.Outcome State Fault Refusal :=
  .next (rdb c index s)

/-- RXF (R85): the reserved state code is an error before anything else; otherwise the operands are
latched and the micro-program begins at GATE (R71). -/
def rxf (phyGate phyPost : BitVec 2) (s : State) : State :=
  if phyGate = Phy.reserved ∨ phyPost = Phy.reserved then raiseError .badOperand s
  else { s with lat := { gate := phyGate, post := phyPost, items := [] } }.goto Phase.gate

def execRxf (phyGate phyPost : BitVec 2) (s : State) : Host.Outcome State Fault Refusal :=
  .next (rxf phyGate phyPost s)

/-- TXT (R86): the loop of TENC over the slots begins at slot 0 (R71). -/
def execTxt (s : State) : Host.Outcome State Fault Refusal :=
  .next ({ s with slot := 0 }.goto Phase.tenc)

/-- A decoded command begins or runs in place (R70). The micro-operations are not host-issuable: no
command word decodes to one, and were one given here it would be an illegal command (log 25). -/
def runCommand (c : Config) (i : Instr) (s : State) : Host.Outcome State Fault Refusal :=
  match i with
  | .nop => execNop s
  | .srst => execSrst s c
  | .csrw csr value => execCsrw csr value s
  | .csrr csr => execCsrr csr s
  | .rdb index => execRdb index s c
  | .rxf phyGate phyPost => execRxf phyGate phyPost s
  | .txt => execTxt s
  | .idle | .gate | .shap | .isyn | .wchk | .dsub | .tdec | .uwer | .adv | .verd | .tenc =>
    .next (raiseError .illegalCommand s)

/-- A command word taken from the port: decoded and begun, or IllegalCommand (R76). -/
def acceptCommand (c : Config) (w : Word) (s : State) : Host.Outcome State Fault Refusal :=
  match decodeCommand w with
  | .ok i => runCommand c i s
  | .error _ => .next (raiseError .illegalCommand s)

/-- IDLE: wait for a command, decode it, run it or begin its micro-program (R70, R76). -/
def execIdle (s : State) (c : Config := Config.cfg) : Host.Outcome State Fault Refusal :=
  match s.env.cmd with
  | [] => .next s
  | w :: rest => acceptCommand c w { s with env := { s.env with cmd := rest } }

end Sys2Proof.Machine
end

