-- ==== Sys2Proof/Machine/InterleaverSync.lean ====
section
/-! DEFINITION. ISYN, WCHK and ADV (spec/43_interleaver_sync.md R112 to R114). -/

namespace Sys2Proof.Machine

/-- The acceptance test of a trial decode (R112). -/
def trialAccepted (c : Config) (r : DecResult) : Bool :=
  r.pcc == c.NPCHK && decide (r.iter ≤ c.TRIAL_ITER_MAX)

/-- ISYN (R112). -/
def isyn (c : Config) (s : State) : State :=
  let s1 := { s with fci := min (s.fci + 1) c.D }
  let s2 :=
    if !s1.ilvSynced && s1.fci == c.D then
      { s1.decodeSub c 0 with ilvSynced := trialAccepted c (fecDecode c s1 0) }
    else s1
  s2.goto Phase.wchk

def execIsyn (s : State) (c : Config := Config.cfg) : Host.Outcome State Fault Refusal :=
  .next (isyn c s)

/-- WCHK (R113). -/
def wchk (c : Config) (s : State) : State :=
  if windowReady c s then { s with fci := 0, decoded := true, subf := 0 }.goto Phase.dsub
  else s.goto Phase.tdec

def execWchk (s : State) (c : Config := Config.cfg) : Host.Outcome State Fault Refusal :=
  .next (wchk c s)

/-- ADV (R114). -/
def adv (s : State) : State :=
  let s1 := { s with phy := s.lat.post, nin := inNinNext s }
  (if s.lat.post = Phy.searching then s1.dropSync else s1).goto Phase.verd

def execAdv (s : State) : Host.Outcome State Fault Refusal := .next (adv s)

end Sys2Proof.Machine
end

