-- ==== Sys2Proof/Machine/RxWindow.lean ====
section
/-! DEFINITION. GATE and SHAP (spec/42_rx_window.md R101, R102). -/

namespace Sys2Proof.Machine

/-- The latch and the `din` queue after GATE took the items that are there, at most those it still
needs (R67, R101). -/
def takeItems (c : Config) (s : State) : State :=
  let missing := neededItems c s.lat.gate - s.lat.items.length
  { s with
    lat := { s.lat with items := s.lat.items ++ s.env.din.take missing }
    env := { s.env with din := s.env.din.drop missing } }

/-- GATE (R101). Until its last item is there it waits in this phase (R168, log 5). The per-call
flags are cleared once the two headers are in. -/
def gate (c : Config) (s : State) : State :=
  let s1 := takeItems c s
  if s1.lat.items.length < 2 then s1
  else
    let s2 := { s1 with uwerr := 0, decoded := false }
    if s2.lat.gate = Phy.searching then s2.dropSync.goto Phase.adv
    else if s2.lat.items.length < neededItems c s2.lat.gate then s2
    else s2.goto Phase.shap

def execGate (s : State) (c : Config := Config.cfg) : Host.Outcome State Fault Refusal :=
  .next (gate c s)

/-- The window shifted left by one frame with the new frame at the tail (R102). -/
def shiftAppend (c : Config) (window frame : List Code) : List Code := window.drop c.S ++ frame

/-- SHAP (R102). -/
def shap (c : Config) (s : State) : State :=
  { s with
    winSym := shiftAppend c s.winSym (inSym c s)
    winAmp := shiftAppend c s.winAmp (inAmp c s) }.goto Phase.isyn

def execShap (s : State) (c : Config := Config.cfg) : Host.Outcome State Fault Refusal :=
  .next (shap c s)

end Sys2Proof.Machine
end

