-- ==== Sys2Proof/Machine/StatsVerdict.lean ====
section
/-! DEFINITION. UWER and VERD (spec/45_stats_verdict.md R130, R134). -/

namespace Sys2Proof.Machine

/-- UWER (R130). -/
def uwer (c : Config) (s : State) : State :=
  let e := mismatches (inUw c s) c.UW
  { s with
    uwerr := uwerrField c e
    terrs := satadd32 s.terrs e
    tbits := satadd32 s.tbits c.U }.goto Phase.adv

def execUwer (s : State) (c : Config := Config.cfg) : Host.Outcome State Fault Refusal :=
  .next (uwer c s)

/-- VERD (R134): respond and end the command; its scratch is gone (R28). -/
def verd (c : Config) (s : State) : State :=
  let v := verdictOf c s
  { respond (rxfWord v.2 v.1 s.decoded) s with lat := Latch.empty }.goto Phase.idle

def execVerd (s : State) (c : Config := Config.cfg) : Host.Outcome State Fault Refusal :=
  .next (verd c s)

end Sys2Proof.Machine
end

