-- ==== Sys2Proof/Machine/TextCodec.lean ====
section
/-! DEFINITION. The text codec, TENC and TDEC (spec/41_text_codec.md R91 to R95). -/

namespace Sys2Proof.Machine

/-- `pat(c)` (R91): the codeword and two zeros, empty for a character without an entry. -/
def pat (c : Config) (ch : Char8) : List Bit :=
  match c.TXT_TABLE.lookup ch with
  | some w => w ++ [false, false]
  | none => []

/-- The character of a codeword, if there is one (R94). -/
def charOf (c : Config) (w : List Bit) : Option Char8 :=
  (c.TXT_TABLE.find? fun e => e.2 == w).map Prod.fst

/-- The last two bits are the terminator `0, 0` (R94). -/
def endsInTerminator (code : List Bit) : Bool :=
  decide (2 ≤ code.length) && code.drop (code.length - 2) == [false, false]

/-- `dec_step` (R94): the new RX_IN and RX_CODE and the character, if one is complete. -/
def decStep (c : Config) (rxIn : Bool) (rxCode : List Bit) (b : Bit) :
    Bool × List Bit × Option Char8 :=
  if rxIn then
    let code := rxCode ++ [b]
    if endsInTerminator code then (false, [], charOf c (code.take (code.length - 2)))
    else if c.TXT_CODE_MAX + 2 ≤ code.length then (false, [], none)
    else (true, code, none)
  else if b then (true, [true], none)
  else (false, [], none)

/-- The received bit of slot `k`. -/
def slotBit (c : Config) (s : State) (k : Nat) : Bit := (inTxt c s).getD k false

/-- The character a slot delivers to the sink, if it completes one and the sink is enabled (R95). -/
def delivered (c : Config) (s : State) : Option Char8 :=
  if s.sinkEn then (decStep c s.rxIn s.rxCode (slotBit c s s.slot)).2.2 else none

/-- TDEC for `k = SLOT` (R95). With no slot left the phase ends at once (log 10). -/
def tdec (c : Config) (s : State) : State :=
  if s.slot < c.T then
    let d := decStep c s.rxIn s.rxCode (slotBit c s s.slot)
    let s1 := { s with rxIn := d.1, rxCode := d.2.1 }.send
      ((delivered c s).toList.map fun ch => .sinkCall ch s.cbctx)
    if s.slot + 1 < c.T then { s1 with slot := s.slot + 1 }.goto Phase.tdec
    else { s1 with slot := 0 }.goto Phase.uwer
  else { s with slot := 0 }.goto Phase.uwer

def execTdec (s : State) (c : Config := Config.cfg) : Host.Outcome State Fault Refusal :=
  .next (tdec c s)

/-- The pattern loaded into the encoder; elements beyond it keep their value (R93). -/
def loadPattern (bits : List Bit) (s : State) : State :=
  if bits = [] then s
  else { s with txBits := bits ++ s.txBits.drop bits.length, txIdx := 0, txN := bits.length }

/-- The fetch of TENC (R92, R93): at a count of zero the source is asked, if enabled; `none` when
it has not answered yet and the phase waits (R168). -/
def fetchChar (c : Config) (s : State) : Option State :=
  if s.txN = 0 ∧ s.srcEn then
    match s.env.txc with
    | [] => none
    | answer :: rest =>
      let s1 := { s with env := { s.env with txc := rest } }.send [.sourceCall s.cbctx answer]
      match answer with
      | some ch => some (loadPattern (pat c ch) s1)
      | none => some s1
  else some s

/-- The bit of the slot: the next pending bit, or 0 in an idle slot (R93). -/
def emitBit (s : State) : State :=
  if s.txN = 0 then s.send [.textBit false]
  else
    { s with txIdx := s.txIdx + 1, txN := s.txN - 1 }.send [.textBit (s.txBits.getD s.txIdx false)]

/-- The end of `TXT` (R86, R93). -/
def endTxt (s : State) : State := (respond 0 { s with slot := 0 }).goto Phase.idle

/-- TENC for `k = SLOT` (R93). With no slot left the command ends at once (log 10). -/
def tenc (c : Config) (s : State) : State :=
  if s.slot < c.D * c.T then
    match fetchChar c s with
    | none => s
    | some s1 =>
      let s2 := emitBit s1
      if s2.slot + 1 < c.D * c.T then { s2 with slot := s2.slot + 1 }.goto Phase.tenc
      else endTxt s2
  else endTxt s

def execTenc (s : State) (c : Config := Config.cfg) : Host.Outcome State Fault Refusal :=
  .next (tenc c s)

end Sys2Proof.Machine
end

