-- ==== Sys2Proof/Machine/Dispatch.lean ====
section
/-! DEFINITION. One arm for each instruction of spec/opcode_table.json. -/

namespace Sys2Proof.Machine

def exec (i : Instr) (s : State) : Host.Outcome State Fault Refusal :=
  match i with
  | .nop => Sys2Proof.Machine.execNop s
  | .srst => Sys2Proof.Machine.execSrst s
  | .csrw csr value => Sys2Proof.Machine.execCsrw csr value s
  | .csrr csr => Sys2Proof.Machine.execCsrr csr s
  | .rdb index => Sys2Proof.Machine.execRdb index s
  | .rxf phyGate phyPost => Sys2Proof.Machine.execRxf phyGate phyPost s
  | .txt => Sys2Proof.Machine.execTxt s
  | .idle => Sys2Proof.Machine.execIdle s
  | .gate => Sys2Proof.Machine.execGate s
  | .shap => Sys2Proof.Machine.execShap s
  | .isyn => Sys2Proof.Machine.execIsyn s
  | .wchk => Sys2Proof.Machine.execWchk s
  | .dsub => Sys2Proof.Machine.execDsub s
  | .tdec => Sys2Proof.Machine.execTdec s
  | .uwer => Sys2Proof.Machine.execUwer s
  | .adv => Sys2Proof.Machine.execAdv s
  | .verd => Sys2Proof.Machine.execVerd s
  | .tenc => Sys2Proof.Machine.execTenc s

end Sys2Proof.Machine
end

