-- ==== Sys2Proof/Machine/Ports.lean ====
section
/-! DEFINITION. When a micro-operation must wait for the other side of a port to accept what it
sends or to answer (spec/30_encoding.md R75, spec/70_reset_and_hazards.md R168). -/

namespace Sys2Proof.Machine

/-- The command word runs in place and so responds in IDLE: every word but a legal RXF and TXT
(R70, R141). -/
def respondsInPlace (c : Config) (w : Word) : Bool :=
  match decodeCommand w with
  | .error _ => true
  | .ok i =>
    (operandError c i).isSome || (match i with
      | .rxf _ _ | .txt => false
      | _ => true)

/-- The micro-operation at hand sends a response (R66). -/
def sendsResponse (c : Config) (s : State) : Bool :=
  (s.seq == Phase.idle && (s.env.cmd.head?.map (respondsInPlace c)).getD false)
    || s.seq == Phase.verd
    || (s.seq == Phase.tenc && decide (c.D * c.T ≤ s.slot + 1))

/-- The micro-operation at hand invokes `S2L` and `DEC` (R112, R120). -/
def invokesDecoder (c : Config) (s : State) : Bool :=
  (s.seq == Phase.isyn && (!s.ilvSynced && decide (c.D ≤ s.fci + 1)))
    || (s.seq == Phase.dsub && decide (s.subf < c.D))

/-- FDI waits: what the micro-operation would send is not accepted now, or a collaborator it would
invoke does not answer. -/
def stalled (c : Config) (s : State) : Bool :=
  (!s.env.rspReady && sendsResponse c s)
    || (!s.env.tboReady && (s.seq == Phase.tenc && decide (s.slot < c.D * c.T)))
    || (!s.env.rxcReady
      && (s.seq == Phase.tdec && decide (s.slot < c.T) && (delivered c s).isSome))
    || (!(s.env.s2lReady && s.env.decReady) && invokesDecoder c s)

end Sys2Proof.Machine
end

