-- ==== Sys2Proof/Machine/Step.lean ====
section
/-! DEFINITION. One step of FDI: one micro-operation of the sequencer. -/

namespace Sys2Proof.Machine

/-- While the reset pin is high everything takes its reset value and no response is produced (R160).
Otherwise the phase in `SEQ` runs (R29, R70), once what it sends is accepted and the collaborators it
invokes answer (R168). IDLE fetches
its command word from the command port. -/
def step (s : State) : Host.Outcome State Fault Refusal :=
  if s.env.rst then .next (s.sessionReset Config.cfg)
  else if stalled Config.cfg s then .next s
  else
    match decodePhase s.seq with
    | .ok i => exec i s
    | .error _ => .fault .reservedPhase

/-- The outside accepts everything, answers every decode and does not reset. -/
def Env.open (e : Env) : Env :=
  { e with
    rspReady := true, tboReady := true, rxcReady := true, s2lReady := true, decReady := true
    rst := false }

/-- The instruction of a row of spec/opcode_table.json placed where the next step takes it: a phase
code of at most 8 bits in `SEQ`, a command word at the head of the command port with `SEQ` at IDLE
(assumption log 15). -/
def State.withFetchWord (s : State) (nbits w : Nat) : State :=
  if nbits ≤ 8 then { s with seq := BitVec.ofNat 4 w, env := s.env.open }
  else
    { s with
      seq := Phase.idle
      env := { s.env.open with cmd := BitVec.ofNat 32 w :: s.env.cmd } }

end Sys2Proof.Machine
end

