-- ==== Sys2Proof/Machine/Transaction.lean ====
section
/-! DEFINITION. The two long commands as one transition each, the transaction level of
spec/00_scope.md R11: the pseudocode of spec/40_host_commands.md R85 and R86 line by line. The
sequencer's steps are claimed to add up to these. -/

namespace Sys2Proof.Machine

/-- The part of `RXF` that runs only when a frame was demodulated (R85), from the state GATE
leaves. -/
def absorbFrame (c : Config) (s : State) : State :=
  let s1 := isyn c (shap c s)
  let s2 := wchk c s1
  let s3 := if windowReady c s1 then (dsub c)^[c.D] s2 else s2
  uwer c ((tdec c)^[c.T] s3)

/-- `RXF gate, post` with all its items queued (R85). -/
def receiveCall (c : Config) (phyGate phyPost : BitVec 2) (s : State) : State :=
  if phyGate = Phy.reserved ∨ phyPost = Phy.reserved then raiseError .badOperand s
  else
    let s1 := gate c (rxf phyGate phyPost s)
    verd c (adv (if phyGate = Phy.searching then s1 else absorbFrame c s1))

/-- One slot of `TXT` (R93) without the phase bookkeeping, the source having answered. -/
def encodeSlot (c : Config) (s : State) : State :=
  match fetchChar c s with
  | some s1 => emitBit s1
  | none => s

/-- `TXT` with an answer of the source queued for every slot that asks (R86). -/
def transmitCall (c : Config) (s : State) : State := respond 0 ((encodeSlot c)^[c.D * c.T] s)

end Sys2Proof.Machine
end

