-- ==== Sys2Proof/Safety.lean ====
section
/-! DEFINITION. What a good state of FDI is: the invariants and ranges spec/10_state.md gives its
registers, with the reachable combinations of spec/43_interleaver_sync.md R111 and the sequencer
registers of R29. -/

namespace Sys2Proof.Machine

/-- The phases of an `RXF` that hold an absorbed frame: SHAP, ISYN, WCHK, DSUB, TDEC, UWER (R71). -/
def frameInHand (seq : BitVec 4) : Prop :=
  seq = Phase.shap ∨ seq = Phase.isyn ∨ seq = Phase.wchk ∨ seq = Phase.dsub ∨ seq = Phase.tdec
    ∨ seq = Phase.uwer

/-- A good state on configuration `c`. -/
structure Inv (c : Config) (s : State) : Prop where
  /-- R14, R15, R22. -/
  memory : Memory.wf c s
  /-- R17. -/
  fci_range : s.fci ≤ c.D
  /-- R111: synchronised with a full count only between ISYN and WCHK. -/
  full_only_in_wchk : s.ilvSynced = true → s.fci = c.D → s.seq = Phase.wchk
  /-- R18. -/
  tx_bits : s.txBits.length = c.TXT_CODE_MAX + 2
  tx_idx : s.txIdx ≤ c.TXT_CODE_MAX + 2
  tx_n : s.txN ≤ c.TXT_CODE_MAX + 2
  /-- R18: whenever `TX_N > 0`, `TX_IDX + TX_N` is the length of the pattern last loaded. -/
  tx_pattern : 0 < s.txN →
    ∃ ch, (pat c ch).length = s.txIdx + s.txN ∧ s.txBits.take (s.txIdx + s.txN) = pat c ch
  /-- R19. -/
  rx_idle : s.rxIn = false → s.rxCode = []
  rx_inside : s.rxIn = true → s.rxCode.head? = some true ∧ s.rxCode.length < c.TXT_CODE_MAX + 2
  /-- R24. -/
  pcc_range : s.pcc.toNat ≤ c.NPCHK
  iter_range : s.iter.toNat ≤ c.ITER_MAX
  /-- R140: codes 4 to 15 are never produced. -/
  err_range : s.err.toNat ≤ 3
  /-- R23, R64. -/
  phy_legal : s.phy ≠ Phy.reserved
  /-- R70: codes 0xB to 0xF are never reached. -/
  seq_legal : s.seq.toNat ≤ 0xA
  /-- R29. -/
  subf_range : s.seq = Phase.dsub → s.subf < c.D
  subf_rest : s.seq ≠ Phase.dsub → s.subf = 0
  slot_tdec : s.seq = Phase.tdec → s.slot = 0 ∨ s.slot < c.T
  slot_tenc : s.seq = Phase.tenc → s.slot = 0 ∨ s.slot < c.D * c.T
  slot_rest : s.seq ≠ Phase.tdec → s.seq ≠ Phase.tenc → s.slot = 0
  /-- R28: the scratch lives within an `RXF`. -/
  latch_idle : s.seq = Phase.idle ∨ s.seq = Phase.tenc → s.lat = Latch.empty
  latch_legal : s.lat.gate ≠ Phy.reserved ∧ s.lat.post ≠ Phy.reserved
  /-- R67: how many items an `RXF` has taken. -/
  items_gate : s.seq = Phase.gate → s.lat.items.length < neededItems c s.lat.gate
  items_taken : frameInHand s.seq ∨ s.seq = Phase.adv ∨ s.seq = Phase.verd →
    s.lat.items.length = neededItems c s.lat.gate
  /-- R100, R101: a frame is absorbed only when the physical layer is not searching. -/
  frame_gate : frameInHand s.seq → s.lat.gate ≠ Phy.searching
  /-- R113: a decode pass runs in a synchronised window whose count was cleared. -/
  decode_pass : s.seq = Phase.dsub → s.ilvSynced = true ∧ s.fci = 0 ∧ s.decoded = true

end Sys2Proof.Machine
end

