-- ==== Sys2Proof/Certificates/Slice0/Obligations.lean ====
section
/-! DEFINITION. The statements about FDI. `Config.cfg` is any well-formed configuration. A frame is
written by putting the old value of every changed field back: what is left is the old state. -/

namespace Sys2Proof.Claims

open Sys2Proof.Machine

/-- Every field at its reset value of R35, the outside and the trace apart. -/
structure ResetValues (c : Config) (t : State) : Prop where
  window : t.winSym.length = c.N ∧ t.winAmp.length = c.N
    ∧ ∀ i < c.N, t.winSym[i]? = some 0 ∧ t.winAmp[i]? = some 0
  sync : t.ilvSynced = false ∧ t.fci = 0
  encoder : t.txBits.length = c.TXT_CODE_MAX + 2 ∧ (∀ b ∈ t.txBits, b = false)
    ∧ t.txIdx = 0 ∧ t.txN = 0
  decoder : t.rxIn = false ∧ t.rxCode = []
  counters : t.tbits = 0 ∧ t.terrs = 0 ∧ t.tbitsc = 0 ∧ t.terrsc = 0
  outbuf : t.outbuf.length = c.D * c.K ∧ ∀ b ∈ t.outbuf, b = false
  results : t.phy = 0 ∧ t.nin = 0 ∧ t.pcc = 0 ∧ t.iter = 0 ∧ t.uwerr = 0 ∧ t.decoded = false
  error : t.err = 0
  control : t.ctrl = 0 ∧ t.sqth = c.SQTH_DEFAULT ∧ t.esno = c.ESNO_DEFAULT ∧ t.cbctx = 0
  sequencer : t.seq = 0 ∧ t.subf = 0 ∧ t.slot = 0 ∧ t.lat = Latch.empty

/-- Error entry with this code: ERR takes it if it was 0, the response carries it, nothing else
changes (R141). -/
def ErrorEntered (code : BitVec 4) (s t : State) : Prop :=
  t.err = (if s.err = 0 then code else s.err)
    ∧ t.trace = s.trace ++ [.response true (BitVec.ofNat 32 code.toNat)]
    ∧ { t with err := s.err, trace := s.trace } = s

/-- The session ends in this step: IDLE takes an SRST, whose response is accepted. -/
def takesSrst (s : State) : Bool :=
  s.seq == Phase.idle && s.env.cmd.head? == some 0x01000000 && s.env.rspReady

/-- The outside accepts everything, answers every decode and does not reset. -/
def EnvOpen (e : Env) : Prop :=
  e.rspReady = true ∧ e.tboReady = true ∧ e.rxcReady = true ∧ e.s2lReady = true ∧ e.decReady = true
    ∧ e.rst = false

/-- What read view `w` of a CSR holds, field by field (R31). -/
def CsrFields (s : State) (csr : BitVec 8) (w : Word) : Prop :=
  (csr = 0x00 → w.toNat = s.ctrl.toNat) ∧ (csr = 0x01 → w.toNat = s.sqth.toNat)
    ∧ (csr = 0x02 → w.toNat = s.esno.toNat) ∧ (csr = 0x03 → w.toNat = s.cbctx.toNat)
    ∧ (csr = 0x04 → w.extractLsb' 0 2 = s.phy ∧ w.getLsbD 2 = s.ilvSynced
        ∧ w.getLsbD 3 = s.decoded ∧ w.extractLsb' 4 4 = s.err
        ∧ w.extractLsb' 8 8 = BitVec.ofNat 8 s.fci ∧ w.extractLsb' 16 16 = 0)
    ∧ (csr = 0x05 → w.toNat = s.pcc.toNat) ∧ (csr = 0x06 → w.toNat = s.iter.toNat)
    ∧ (csr = 0x07 → w.toNat = s.nin.toNat) ∧ (csr = 0x08 → w.toNat = s.uwerr.toNat)
    ∧ (csr = 0x09 → w = s.tbits) ∧ (csr = 0x0A → w = s.terrs) ∧ (csr = 0x0B → w = s.tbitsc)
    ∧ (csr = 0x0C → w = s.terrsc)
    ∧ (csr = 0x0D → w.extractLsb' 0 8 = BitVec.ofNat 8 s.txN
        ∧ w.extractLsb' 8 8 = BitVec.ofNat 8 s.txIdx ∧ w.getLsbD 16 = s.rxIn
        ∧ w.extractLsb' 17 7 = 0 ∧ w.extractLsb' 24 8 = BitVec.ofNat 8 s.rxCode.length)

/-- `#{ i in 0..n-1 : xs[i] != ys[i] }` (00_scope.md section 4). -/
def differing (n : Nat) (xs ys : Nat → Option Bit) : Nat :=
  ((Finset.range n).filter fun i => xs i ≠ ys i).card

/-- The invocations of one `FecDecode(j)`: `S2L`, then `DEC` on the padded array (R52, R121). -/
def decodeInvocations (c : Config) (s : State) (j : Nat) : List Event :=
  let sym := (List.range c.S).map fun i => deSym c s (j * c.S + i)
  let amp := (List.range c.S).map fun i => deAmp c s (j * c.S + i)
  [.s2lCall sym amp s.esno (inMeanAmp c s),
   .decCall (pad c (c.S2L sym amp s.esno (inMeanAmp c s)))]

/-- After the body of TENC left state `u`: the "next" line of R93. -/
def slotEnds (c : Config) (u : State) : State :=
  if u.slot + 1 < c.D * c.T then { u with slot := u.slot + 1, seq := Phase.tenc }
  else { u with slot := 0, seq := Phase.idle, trace := u.trace ++ [.response false 0] }

/-- The characters the decoder yields on a bit stream, from a decoder state (R94). -/
def decodeStream (c : Config) : Bool × List Bit → List Bit → List Char8
  | _, [] => []
  | st, b :: rest =>
    let d := decStep c st.1 st.2 b
    d.2.2.toList ++ decodeStream c (d.1, d.2.1) rest

/-- The decoder state after a bit stream (R94). -/
def decoderAfter (c : Config) (st : Bool × List Bit) (bits : List Bit) : Bool × List Bit :=
  bits.foldl (fun st b => ((decStep c st.1 st.2 b).1, (decStep c st.1 st.2 b).2.1)) st

/-- The characters yielded frame by frame, the decoder state kept between frames (R96). -/
def decodeFrames (c : Config) : Bool × List Bit → List (List Bit) → List Char8
  | _, [] => []
  | st, f :: rest => decodeStream c st f ++ decodeFrames c (decoderAfter c st f) rest

/-- The text bits among the events, in order. -/
def textBits (es : List Event) : List Bit :=
  es.filterMap fun e => match e with
    | .textBit b => some b
    | _ => none

/-- The responses among the events. -/
def responses (es : List Event) : List Event :=
  es.filter fun e => match e with
    | .response _ _ => true
    | _ => false

/-- 1 while a command is in progress. -/
def busy (s : State) : Nat := if s.seq = Phase.idle then 0 else 1

/-- The step from `s` to `t` is a reset or an SRST, or finds the physical layer searching, in GATE or
in ADV (R35, R101, R114). -/
def startsAfresh (s t : State) : Bool :=
  s.env.rst || (s.seq == Phase.gate && t.seq == Phase.adv)
    || (s.seq == Phase.adv && s.lat.post == Phy.searching)
    || takesSrst s

/-- The number of frames absorbed since the last fresh start, after the step from `s` to `t`, having
been `n` before it. -/
def framesAfter (s t : State) (n : Nat) : Nat :=
  if startsAfresh s t then 0 else if s.seq = Phase.shap then n + 1 else n

/-- `n` frames were absorbed since the last fresh start: FCI counts them up to `D` while not
synchronised, the one ISYN has not counted yet apart, and a synchronised window holds `D` of them. -/
def FreshFor (c : Config) (s : State) (n : Nat) : Prop :=
  (s.ilvSynced = false → s.fci = min (if s.seq = Phase.isyn then n - 1 else n) c.D)
    ∧ (s.seq = Phase.isyn → 1 ≤ n)
    ∧ (s.ilvSynced = true → c.D ≤ n)
    ∧ (s.seq = Phase.dsub → s.ilvSynced = true)

end Sys2Proof.Claims

open Sys2Proof Sys2Proof.Machine Sys2Proof.Claims

/-! ### Encoding -/

/-- R60 to R63, R70: every instruction, with every operand, is read back from its encoding. -/
def Obligations.DecodeInvertsEncode : Prop := ∀ i : Instr, decode (encode i) = .ok i

/-- R61, R70: a word that decodes is the encoding of what it decodes to, so no two words mean the
same command. -/
def Obligations.EncodeInvertsDecode : Prop :=
  ∀ (e : Encoded) (i : Instr), decode e = .ok i → encode i = e

/-- R61, R65: which words are commands, by their fields; every other word is illegal. -/
def Obligations.CommandWordsByField : Prop :=
  ∀ w : Word,
    ((∃ i, decodeCommand w = .ok i) ↔
      (fieldOp w = 0x00 ∧ fieldF w = 0 ∧ fieldImm w = 0)
      ∨ (fieldOp w = 0x01 ∧ fieldF w = 0 ∧ fieldImm w = 0)
      ∨ fieldOp w = 0x02
      ∨ (fieldOp w = 0x03 ∧ fieldImm w = 0)
      ∨ (fieldOp w = 0x04 ∧ fieldF w = 0)
      ∨ (fieldOp w = 0x10 ∧ (fieldF w).extractLsb' 4 4 = 0 ∧ fieldImm w = 0)
      ∨ (fieldOp w = 0x11 ∧ fieldF w = 0 ∧ fieldImm w = 0))
    ∧ ((∃ i, decodeCommand w = .ok i) ∨ decodeCommand w = .error .illegalCommand)

/-- Words of 95_test_vectors.md and R61, R70 decode to what they stand for. A sanity statement. -/
def Obligations.SpecWordsDecode : Prop :=
  decodeCommand 0x00000000 = .ok .nop ∧ decodeCommand 0x01000000 = .ok .srst
    ∧ decodeCommand 0x0201FFFB = .ok (.csrw 0x01 0xFFFB)
    ∧ decodeCommand 0x030D0000 = .ok (.csrr 0x0D) ∧ decodeCommand 0x04000001 = .ok (.rdb 1)
    ∧ decodeCommand 0x10090000 = .ok (.rxf Phy.trial Phy.synced)
    ∧ decodeCommand 0x11000000 = .ok .txt ∧ decodeCommand 0x11000001 = .error .illegalCommand
    ∧ decodeCommand 0x10100000 = .error .illegalCommand
    ∧ decodePhase 0x5 = .ok .dsub ∧ decodePhase 0xA = .ok .tenc
    ∧ decodePhase 0xB = .error .reservedPhase

/-! ### The step, reset, waiting -/

/-- R70, R76: a step runs the phase in SEQ; in IDLE with a command word waiting it takes the word
and runs the command. That one micro-operation is one step is the model's choice (log 2). -/
def Obligations.StepRunsInstruction : Prop :=
  ∀ s : State, s.env.rst = false → stalled Config.cfg s = false →
    (∀ i, decodePhase s.seq = .ok i → step s = exec i s)
    ∧ (∀ w rest i, s.seq = Phase.idle → s.env.cmd = w :: rest → decodeCommand w = .ok i →
        step s = exec i { s with env := { s.env with cmd := rest } })

/-- R35: the state right after reset. -/
def Obligations.ResetStateValues : Prop := ResetValues Config.cfg State.reset

/-- R160: while the reset pin is high everything takes its reset value, whatever was in progress,
and nothing is sent. That the queues of the outside and the trace stay is the model's choice
(log 7). -/
def Obligations.ResetPinRestoresReset : Prop :=
  ∀ s : State, s.env.rst = true →
    ∃ t, step s = .next t ∧ ResetValues Config.cfg t ∧ t.env = s.env ∧ t.trace = s.trace

/-- The invariant holds right after reset. -/
def Obligations.ResetStateIsGood : Prop := Inv Config.cfg State.reset

/-- R15, R17 to R19, R22 to R24, R29, R111: every step keeps the invariant. -/
def Obligations.StepKeepsGoodStates : Prop :=
  ∀ s t : State, Inv Config.cfg s → step s = .next t → Inv Config.cfg t

/-- From a good state a step never stops with a fault or a refusal (R70, R145). That a next state
exists also while FDI waits is the model's choice (log 5): R168 says that the command then has no
next state. -/
def Obligations.GoodStatesNeverStop : Prop :=
  ∀ s : State, Inv Config.cfg s → ∃ t, step s = .next t

/-- R168: FDI waits for a command, an answer of the source, of `S2L` and of `DEC`, and the acceptance
of a response, a text bit or a character. That a wait is a step that keeps the state is the model's choice (logs 5, 6). -/
def Obligations.WaitingChangesNothing : Prop :=
  ∀ s : State, s.env.rst = false →
    (s.seq = Phase.idle ∧ s.env.cmd = []
      ∨ s.seq = Phase.idle ∧ s.env.rspReady = false
          ∧ (∃ w rest i, s.env.cmd = w :: rest ∧ decodeCommand w = .ok i ∧ i ≠ .txt
              ∧ ∀ phyGate phyPost, i ≠ .rxf phyGate phyPost)
      ∨ s.seq = Phase.tenc ∧ s.slot < Config.cfg.D * Config.cfg.T ∧ s.txN = 0 ∧ s.srcEn = true
          ∧ s.env.txc = []
      ∨ s.seq = Phase.verd ∧ s.env.rspReady = false
      ∨ s.seq = Phase.tenc ∧ s.slot + 1 = Config.cfg.D * Config.cfg.T ∧ s.env.rspReady = false
      ∨ s.seq = Phase.tenc ∧ s.slot < Config.cfg.D * Config.cfg.T ∧ s.env.tboReady = false
      ∨ s.seq = Phase.tdec ∧ s.slot < Config.cfg.T ∧ s.sinkEn = true
          ∧ (decStep Config.cfg s.rxIn s.rxCode (slotBit Config.cfg s s.slot)).2.2 ≠ none
          ∧ s.env.rxcReady = false
      ∨ s.seq = Phase.isyn ∧ s.ilvSynced = false ∧ Config.cfg.D ≤ s.fci + 1
          ∧ (s.env.s2lReady = false ∨ s.env.decReady = false)
      ∨ s.seq = Phase.dsub ∧ s.subf < Config.cfg.D
          ∧ (s.env.s2lReady = false ∨ s.env.decReady = false)) →
    step s = .next s

/-! ### Host commands and errors -/

/-- R140 to R144: each error, when it is raised and what it does. -/
def Obligations.ErrorsLeaveOnlyTheirCode : Prop :=
  ∀ s : State,
    (∀ csr value, 0x03 < csr.toNat → ∃ t, exec (.csrw csr value) s = .next t ∧ ErrorEntered 2 s t)
    ∧ (∀ csr, 0x0D < csr.toNat → ∃ t, exec (.csrr csr) s = .next t ∧ ErrorEntered 2 s t)
    ∧ (∀ index, Config.cfg.OUT_BYTES ≤ index.toNat →
        ∃ t, exec (.rdb index) s = .next t ∧ ErrorEntered 3 s t)
    ∧ (∀ phyGate phyPost, phyGate = 3 ∨ phyPost = 3 →
        ∃ t, exec (.rxf phyGate phyPost) s = .next t ∧ ErrorEntered 3 s t)
    ∧ (∀ w rest e, s.env.cmd = w :: rest → decodeCommand w = .error e →
        ∃ t, exec .idle s = .next t
          ∧ ErrorEntered 1 { s with env := { s.env with cmd := rest } } t)

/-- R80: NOP responds with 0 and changes no state. -/
def Obligations.NopOnlyResponds : Prop :=
  ∀ s : State, ∃ t, exec .nop s = .next t ∧ t.trace = s.trace ++ [.response false 0]
    ∧ { t with trace := s.trace } = s

/-- R81, R161: SRST gives every register and storage space its reset value, leaves the queues of the
outside, and responds with 0. -/
def Obligations.SrstRestoresReset : Prop :=
  ∀ s : State, ∃ t, exec .srst s = .next t ∧ ResetValues Config.cfg t ∧ t.env = s.env
    ∧ t.trace = s.trace ++ [.response false 0]

/-- R82, R32: CSRW of each writable register, and nothing else changes. -/
def Obligations.CsrwWritesItsRegister : Prop :=
  ∀ (s : State) (csr : BitVec 8) (value : BitVec 16), csr.toNat ≤ 0x03 →
    ∃ t, exec (.csrw csr value) s = .next t
      ∧ t.ctrl = (if csr = 0x00 then value.extractLsb' 0 4 else s.ctrl)
      ∧ t.sqth = (if csr = 0x01 then value else s.sqth)
      ∧ t.esno = (if csr = 0x02 then value else s.esno)
      ∧ t.cbctx = (if csr = 0x03 then value else s.cbctx)
      ∧ t.trace = s.trace ++ [.response false 0]
      ∧ { t with ctrl := s.ctrl, sqth := s.sqth, esno := s.esno, cbctx := s.cbctx,
                 trace := s.trace } = s

/-- R83, R31: CSRR of each register responds with its view and has no side effect. -/
def Obligations.CsrrReadsItsRegister : Prop :=
  ∀ (s : State) (csr : BitVec 8), csr.toNat ≤ 0x0D →
    ∃ t w, exec (.csrr csr) s = .next t ∧ CsrFields s csr w
      ∧ t.trace = s.trace ++ [.response false w] ∧ { t with trace := s.trace } = s

/-- R84, R45: RDB responds with the byte, earliest bit most significant, and has no side effect. -/
def Obligations.RdbReadsPackedByte : Prop :=
  ∀ (s : State) (index : BitVec 16), index.toNat < Config.cfg.OUT_BYTES →
    ∃ t w, exec (.rdb index) s = .next t
      ∧ w.toNat = ∑ b ∈ Finset.range 8,
          (if s.outbuf[8 * index.toNat + b]? = some true then 2 ^ (7 - b) else 0)
      ∧ t.trace = s.trace ++ [.response false w] ∧ { t with trace := s.trace } = s

/-- R71, R85: a legal RXF latches its operands, takes no item yet and begins at GATE (the latches:
log 12). -/
def Obligations.RxfBeginsAtGate : Prop :=
  ∀ (s : State) (phyGate phyPost : BitVec 2), phyGate ≠ 3 → phyPost ≠ 3 →
    ∃ t, exec (.rxf phyGate phyPost) s = .next t ∧ t.seq = 0x1
      ∧ t.lat.gate = phyGate ∧ t.lat.post = phyPost ∧ t.lat.items = []
      ∧ { t with seq := s.seq, lat := s.lat } = s

/-- R71, R86: TXT begins the loop of TENC at slot 0. -/
def Obligations.TxtBeginsAtTenc : Prop :=
  ∀ s : State, ∃ t, exec .txt s = .next t ∧ t.seq = 0xA ∧ t.slot = 0
    ∧ { t with seq := s.seq, slot := s.slot } = s

/-- R70, R76: IDLE waits while no command is offered and runs the offered command otherwise. That the
wait is a next state is the model's choice (log 5). -/
def Obligations.IdleRunsOfferedCommand : Prop :=
  ∀ s : State, (s.env.cmd = [] → exec .idle s = .next s)
    ∧ ∀ w rest i, s.env.cmd = w :: rest → decodeCommand w = .ok i →
        i.isCommand = true
        ∧ exec .idle s = exec i { s with env := { s.env with cmd := rest } }
        ∧ ∃ t, exec .idle s = .next t

/-! ### Receive window -/

/-- R101: GATE with the rest of its items queued takes exactly them, clears the per-call flags and
branches on `phy_gate`; searching drops interleaver sync and the decode results. -/
def Obligations.GateTakesItemsAndBranches : Prop :=
  ∀ s : State,
    let n := if s.lat.gate = 0 then 2
      else 3 + Config.cfg.U + 2 * Config.cfg.S + Config.cfg.T
    let missing := n - s.lat.items.length
    s.lat.items.length < n → n ≤ s.lat.items.length + s.env.din.length →
    ∃ t, exec .gate s = .next t
      ∧ t.lat = { s.lat with items := s.lat.items ++ s.env.din.take missing }
      ∧ t.env = { s.env with din := s.env.din.drop missing }
      ∧ t.uwerr = 0 ∧ t.decoded = false
      ∧ (s.lat.gate = 0 →
          t.ilvSynced = false ∧ t.fci = 0 ∧ t.pcc = 0 ∧ t.iter = 0 ∧ t.seq = 0x8)
      ∧ (s.lat.gate ≠ 0 → t.ilvSynced = s.ilvSynced ∧ t.fci = s.fci ∧ t.pcc = s.pcc
          ∧ t.iter = s.iter ∧ t.seq = 0x2)
      ∧ { t with lat := s.lat, env := s.env, uwerr := s.uwerr, decoded := s.decoded,
                 ilvSynced := s.ilvSynced, fci := s.fci, pcc := s.pcc, iter := s.iter,
                 seq := s.seq } = s

/-- R167, R168: GATE short of items takes those that are there and waits in its phase; nothing is
lost, nothing is sent, and no state but the per-call flags it may already have cleared changes. That
it takes the items as they come, and that waiting is a next state, is the model's choice
(logs 12, 5). -/
def Obligations.GateWaitsForItems : Prop :=
  ∀ s : State, s.lat.items.length + s.env.din.length < neededItems Config.cfg s.lat.gate →
    ∃ t, exec .gate s = .next t ∧ t.seq = s.seq ∧ t.env.din = []
      ∧ t.lat.items = s.lat.items ++ s.env.din
      ∧ { t with lat := s.lat, env := s.env, uwerr := s.uwerr, decoded := s.decoded } = s
      ∧ t.lat.gate = s.lat.gate ∧ t.lat.post = s.lat.post
      ∧ { t.env with din := s.env.din } = s.env

/-- R67: which item each input of an absorbing RXF is, and which of its bits count. -/
def Obligations.StreamItemsByPosition : Prop :=
  ∀ (c : Config) (s : State), s.lat.items.length = 3 + c.U + 2 * c.S + c.T →
    ∀ x : Nat → Code, (∀ k < 3 + c.U + 2 * c.S + c.T, s.lat.items[k]? = some (x k)) →
      (inNinCur s).toNat = x 0 % 2 ^ 16 ∧ (inNinNext s).toNat = x 0 / 2 ^ 16 % 2 ^ 16
      ∧ (inSnrEst s).toNat = x 1 % 2 ^ 16 ∧ inMeanAmp c s = x 2 % 2 ^ c.AMP_W
      ∧ (inUw c s).length = c.U ∧ (∀ i < c.U, (inUw c s)[i]? = some (x (3 + i) % 2 == 1))
      ∧ (inSym c s).length = c.S
      ∧ (∀ i < c.S, (inSym c s)[i]? = some (x (3 + c.U + i) % 2 ^ c.SYM_W))
      ∧ (inAmp c s).length = c.S
      ∧ (∀ i < c.S, (inAmp c s)[i]? = some (x (3 + c.U + c.S + i) % 2 ^ c.AMP_W))
      ∧ (inTxt c s).length = c.T
      ∧ (∀ k < c.T, (inTxt c s)[k]? = some (x (3 + c.U + 2 * c.S + k) % 2 == 1))

/-- R102: SHAP moves every element down by one frame, appends the new frame, keeps the length and
changes nothing else. -/
def Obligations.ShapShiftsAndAppends : Prop :=
  ∀ s : State, s.winSym.length = Config.cfg.N → s.winAmp.length = Config.cfg.N →
    s.lat.items.length = 3 + Config.cfg.U + 2 * Config.cfg.S + Config.cfg.T →
    ∃ t, exec .shap s = .next t
      ∧ t.winSym.length = Config.cfg.N ∧ t.winAmp.length = Config.cfg.N
      ∧ (∀ i, i + Config.cfg.S < Config.cfg.N →
          t.winSym[i]? = s.winSym[i + Config.cfg.S]? ∧ t.winAmp[i]? = s.winAmp[i + Config.cfg.S]?)
      ∧ (∀ i < Config.cfg.S,
          t.winSym[Config.cfg.N - Config.cfg.S + i]? = (inSym Config.cfg s)[i]?
          ∧ t.winAmp[Config.cfg.N - Config.cfg.S + i]? = (inAmp Config.cfg s)[i]?)
      ∧ t.seq = 0x3
      ∧ { t with winSym := s.winSym, winAmp := s.winAmp, seq := s.seq } = s

/-- R105, the spec's own inference: absorb the `D` frames of an interleaved window in order, and the deinterleaved view is the
transmitter's codewords. -/
def Obligations.DeinterleaverUndoesInterleaver : Prop :=
  ∀ (u v : Nat → State) (cw il : Nat → Code),
    (u 0).winSym.length = Config.cfg.N →
    (∀ f < Config.cfg.D, exec .shap (u f) = .next (v f)) →
    (∀ f, f + 1 < Config.cfg.D → (u (f + 1)).winSym = (v f).winSym) →
    (∀ f < Config.cfg.D, (inSym Config.cfg (u f)).length = Config.cfg.S) →
    (∀ f < Config.cfg.D, ∀ i < Config.cfg.S,
      (inSym Config.cfg (u f))[i]? = some (il (f * Config.cfg.S + i))) →
    (∀ k < Config.cfg.N, il (Config.cfg.PI k) = cw k) →
    ∀ k < Config.cfg.N, deSym Config.cfg (v (Config.cfg.D - 1)) k = cw k

/-! ### Interleaver sync -/

/-- R112: ISYN counts the frame; at a full count without sync it makes one trial decode of sub-frame
0, records its counts and accepts it or not; otherwise it only counts. -/
def Obligations.IsynCountsAndTries : Prop :=
  ∀ s : State, ∃ t, exec .isyn s = .next t
    ∧ t.fci = min (s.fci + 1) Config.cfg.D ∧ t.seq = 0x4
    ∧ (s.ilvSynced = false → Config.cfg.D ≤ s.fci + 1 →
        let r := fecDecode Config.cfg s 0
        t.iter.toNat = r.iter ∧ t.pcc.toNat = r.pcc
        ∧ (t.ilvSynced = true ↔ r.pcc = Config.cfg.NPCHK ∧ r.iter ≤ Config.cfg.TRIAL_ITER_MAX)
        ∧ t.trace = s.trace ++ decodeInvocations Config.cfg s 0)
    ∧ (s.ilvSynced = true ∨ s.fci + 1 < Config.cfg.D →
        t.iter = s.iter ∧ t.pcc = s.pcc ∧ t.ilvSynced = s.ilvSynced ∧ t.trace = s.trace)
    ∧ { t with fci := s.fci, seq := s.seq, iter := s.iter, pcc := s.pcc,
               ilvSynced := s.ilvSynced, trace := s.trace } = s

/-- R113: WCHK starts a decode pass in a full synchronised window and goes to the text slots
otherwise. -/
def Obligations.WchkStartsDecodePass : Prop :=
  ∀ s : State, ∃ t, exec .wchk s = .next t
    ∧ (s.ilvSynced = true ∧ s.fci = Config.cfg.D →
        t.fci = 0 ∧ t.decoded = true ∧ t.subf = 0 ∧ t.seq = 0x5)
    ∧ (¬(s.ilvSynced = true ∧ s.fci = Config.cfg.D) →
        t.fci = s.fci ∧ t.decoded = s.decoded ∧ t.subf = s.subf ∧ t.seq = 0x6)
    ∧ { t with fci := s.fci, decoded := s.decoded, subf := s.subf, seq := s.seq } = s

/-- R114: ADV latches PHY and NIN and drops interleaver sync when the physical layer is searching. -/
def Obligations.AdvLatchesAndDrops : Prop :=
  ∀ s : State, ∃ t, exec .adv s = .next t
    ∧ t.phy = s.lat.post ∧ t.nin = inNinNext s ∧ t.seq = 0x9
    ∧ (s.lat.post = 0 → t.ilvSynced = false ∧ t.fci = 0 ∧ t.pcc = 0 ∧ t.iter = 0)
    ∧ (s.lat.post ≠ 0 → t.ilvSynced = s.ilvSynced ∧ t.fci = s.fci ∧ t.pcc = s.pcc
        ∧ t.iter = s.iter)
    ∧ { t with phy := s.phy, nin := s.nin, seq := s.seq, ilvSynced := s.ilvSynced, fci := s.fci,
               pcc := s.pcc, iter := s.iter } = s

/-- R115, its last sentences (decision D11): interleaver sync is lost only when the physical layer is searching, at reset and at SRST,
never on a decode. -/
def Obligations.SyncLostOnlyWithoutSignal : Prop :=
  ∀ s t : State, step s = .next t → s.ilvSynced = true → t.ilvSynced = false →
    s.env.rst = true ∨ takesSrst s = true
    ∨ (s.seq = Phase.gate ∧ s.lat.gate = Phy.searching)
    ∨ (s.seq = Phase.adv ∧ s.lat.post = Phy.searching)

/-- R115, the spec's own inference: the interleaver machine over one whole RXF, from an idle state. -/
def Obligations.SyncTransitionTable : Prop :=
  ∀ (s : State) (phyGate phyPost : BitVec 2), Inv Config.cfg s → s.seq = Phase.idle →
    phyGate ≠ 3 → phyPost ≠ 3 → neededItems Config.cfg phyGate ≤ s.env.din.length →
    let t := receiveCall Config.cfg phyGate phyPost s
    let r := fecDecode Config.cfg
      (shap Config.cfg (gate Config.cfg (rxf phyGate phyPost s))) 0
    let ok := r.pcc = Config.cfg.NPCHK ∧ r.iter ≤ Config.cfg.TRIAL_ITER_MAX
    let after := fun (synced : Bool) (count : Nat) (pass : Bool) =>
      t.decoded = pass
      ∧ (phyPost ≠ 0 → t.ilvSynced = synced ∧ t.fci = count)
      ∧ (phyPost = 0 → t.ilvSynced = false ∧ t.fci = 0)
    (phyGate = 0 → after false 0 false)
    ∧ (phyGate ≠ 0 → s.ilvSynced = false → s.fci + 1 < Config.cfg.D →
        after false (s.fci + 1) false)
    ∧ (phyGate ≠ 0 → s.ilvSynced = false → min (s.fci + 1) Config.cfg.D = Config.cfg.D → ¬ok →
        after false Config.cfg.D false)
    ∧ (phyGate ≠ 0 → s.ilvSynced = false → min (s.fci + 1) Config.cfg.D = Config.cfg.D → ok →
        after true 0 true)
    ∧ (phyGate ≠ 0 → s.ilvSynced = true → s.fci + 1 < Config.cfg.D →
        after true (s.fci + 1) false)
    ∧ (phyGate ≠ 0 → s.ilvSynced = true → s.fci + 1 = Config.cfg.D → after true 0 true)

/-- R106, the spec's own inference: the frames absorbed since the last reset, SRST or loss of signal are counted right by every
step; so whenever a trial decode or a decode pass reads the window, all `D` frames in it were
absorbed since then. -/
def Obligations.DecodedWindowIsFresh : Prop :=
  FreshFor Config.cfg State.reset 0
    ∧ (∀ (s t : State) (n : Nat), FreshFor Config.cfg s n → step s = .next t →
        FreshFor Config.cfg t (framesAfter s t n))
    ∧ ∀ (s : State) (n : Nat), FreshFor Config.cfg s n →
        (s.seq = Phase.dsub → Config.cfg.D ≤ n)
        ∧ (s.seq = Phase.isyn → s.ilvSynced = false → Config.cfg.D ≤ s.fci + 1 →
            Config.cfg.D ≤ n)

/-! ### FEC pipeline -/

/-- R122, R123, R128: the padded array, element by element, for every configuration. -/
def Obligations.PadLayout : Prop :=
  ∀ c : Config, c.WF → ∀ llr : List Code, llr.length = c.B →
    (pad c llr).length = c.NC
    ∧ (∀ i < c.K, (pad c llr)[i]? = llr[i]?)
    ∧ (∀ i, c.K ≤ i → i < c.ND → (pad c llr)[i]? = some c.LLR_PAD)
    ∧ (∀ i, c.ND ≤ i → i < c.NC → (pad c llr)[i]? = llr[i - (c.ND - c.K)]?)
    ∧ (c.ND = c.K → pad c llr = llr)

/-- R104, R121: what `S2L` and `DEC` are given for a sub-frame: the window through PI, symbol with
amplitude, then the padded LLRs, `NC` of them. -/
def Obligations.SubFrameReadsThroughPermutation : Prop :=
  ∀ c : Config, c.WF → ∀ s : State, s.winSym.length = c.N → s.winAmp.length = c.N →
    ∀ j < c.D, ∃ sym amp : List Code,
      sym.length = c.S ∧ amp.length = c.S
      ∧ (∀ i < c.S, sym[i]? = s.winSym[c.PI (j * c.S + i)]?
          ∧ amp[i]? = s.winAmp[c.PI (j * c.S + i)]?)
      ∧ (pad c (c.S2L sym amp s.esno (inMeanAmp c s))).length = c.NC
      ∧ fecDecode c s j = c.DEC (pad c (c.S2L sym amp s.esno (inMeanAmp c s)))
      ∧ fecEvents c s j = [.s2lCall sym amp s.esno (inMeanAmp c s),
          .decCall (pad c (c.S2L sym amp s.esno (inMeanAmp c s)))]

/-- R120, R124, R125: DSUB outside test mode stores the payload at the sub-frame's offset. -/
def Obligations.DsubStoresPayload : Prop :=
  ∀ s : State, s.subf < Config.cfg.D → s.ctrl.getLsbD 0 = false →
    s.outbuf.length = Config.cfg.D * Config.cfg.K →
    let r := fecDecode Config.cfg s s.subf
    ∃ t, exec .dsub s = .next t
      ∧ t.iter.toNat = r.iter ∧ t.pcc.toNat = r.pcc
      ∧ t.outbuf.length = s.outbuf.length
      ∧ (∀ i < Config.cfg.K, t.outbuf[s.subf * Config.cfg.K + i]? = r.bits[i]?)
      ∧ (∀ x, x < s.subf * Config.cfg.K ∨ s.subf * Config.cfg.K + Config.cfg.K ≤ x →
          t.outbuf[x]? = s.outbuf[x]?)
      ∧ t.trace = s.trace ++ decodeInvocations Config.cfg s s.subf
      ∧ (s.subf + 1 < Config.cfg.D → t.subf = s.subf + 1 ∧ t.seq = 0x5)
      ∧ (Config.cfg.D ≤ s.subf + 1 → t.subf = 0 ∧ t.seq = 0x6)
      ∧ { t with iter := s.iter, pcc := s.pcc, outbuf := s.outbuf, trace := s.trace,
                 subf := s.subf, seq := s.seq } = s

/-- R120, R124, R126: DSUB in test mode scores the payload and leaves OUTBUF alone. -/
def Obligations.DsubScoresInTestMode : Prop :=
  ∀ s : State, s.subf < Config.cfg.D → s.ctrl.getLsbD 0 = true →
    let r := fecDecode Config.cfg s s.subf
    let e := differing Config.cfg.K (fun i => r.bits[i]?)
      (fun i => Config.cfg.REF[s.subf * Config.cfg.K + i]?)
    ∃ t, exec .dsub s = .next t
      ∧ t.iter.toNat = r.iter ∧ t.pcc.toNat = r.pcc
      ∧ t.terrsc.toNat = min (s.terrsc.toNat + e) (2 ^ 32 - 1)
      ∧ t.tbitsc.toNat = min (s.tbitsc.toNat + Config.cfg.K) (2 ^ 32 - 1)
      ∧ t.trace = s.trace ++ decodeInvocations Config.cfg s s.subf
      ∧ (s.subf + 1 < Config.cfg.D → t.subf = s.subf + 1 ∧ t.seq = 0x5)
      ∧ (Config.cfg.D ≤ s.subf + 1 → t.subf = 0 ∧ t.seq = 0x6)
      ∧ { t with iter := s.iter, pcc := s.pcc, terrsc := s.terrsc, tbitsc := s.tbitsc,
                 trace := s.trace, subf := s.subf, seq := s.seq } = s

/-- R120, R125, R52: a whole decode pass outside test mode replaces all of OUTBUF, invokes the
decoder once for each sub-frame in ascending order and leaves the counts of the last one. -/
def Obligations.DecodePassFillsOutbuf : Prop :=
  ∀ s : State, s.seq = Phase.dsub → s.subf = 0 → EnvOpen s.env → s.ctrl.getLsbD 0 = false →
    s.outbuf.length = Config.cfg.D * Config.cfg.K →
    ∃ t, Sys2Proof.core.run Config.cfg.D s = .next t ∧ t.seq = 0x6 ∧ t.subf = 0
      ∧ (∀ j < Config.cfg.D, ∀ i < Config.cfg.K,
          t.outbuf[j * Config.cfg.K + i]? = (fecDecode Config.cfg s j).bits[i]?)
      ∧ t.pcc.toNat = (fecDecode Config.cfg s (Config.cfg.D - 1)).pcc
      ∧ t.iter.toNat = (fecDecode Config.cfg s (Config.cfg.D - 1)).iter
      ∧ t.trace = s.trace
          ++ (List.range Config.cfg.D).flatMap (fun j => decodeInvocations Config.cfg s j)
      ∧ { t with outbuf := s.outbuf, pcc := s.pcc, iter := s.iter, trace := s.trace,
                 seq := s.seq } = s

/-! ### Text codec -/

/-- R91: the transmitted pattern of a character; its only two consecutive zeros are its last two
bits. -/
def Obligations.PatternOfCharacter : Prop :=
  ∀ c : Config, c.WF → ∀ ch : Char8,
    (∀ w, (ch, w) ∈ c.TXT_TABLE → pat c ch = w ++ [false, false]
      ∧ 3 ≤ (pat c ch).length ∧ (pat c ch).length ≤ c.TXT_CODE_MAX + 2)
    ∧ ((∀ w, (ch, w) ∉ c.TXT_TABLE) → pat c ch = [])
    ∧ ∀ i, (pat c ch)[i]? = some false → (pat c ch)[i + 1]? = some false →
        i + 2 = (pat c ch).length

/-- R94: the decoder step, case by case. -/
def Obligations.DecoderStepCases : Prop :=
  ∀ c : Config, c.WF → ∀ (code : List Bit) (b : Bit),
    decStep c false code true = (true, [true], none)
    ∧ decStep c false code false = (false, [], none)
    ∧ (∀ cw, code ++ [b] = cw ++ [false, false] →
        ∃ out, decStep c true code b = (false, [], out)
          ∧ ∀ ch, out = some ch ↔ (ch, cw) ∈ c.TXT_TABLE)
    ∧ ((¬∃ cw, code ++ [b] = cw ++ [false, false]) →
        (c.TXT_CODE_MAX + 2 ≤ code.length + 1 → decStep c true code b = (false, [], none))
        ∧ (code.length + 1 < c.TXT_CODE_MAX + 2 → decStep c true code b = (true, code ++ [b], none)))

/-- R95: TDEC decodes the bit of its slot, delivers a completed character to an enabled sink and
moves to the next slot or on to UWER. That a TDEC without a slot only moves on is the model's reading
(log 10). -/
def Obligations.TdecDecodesItsSlot : Prop :=
  ∀ s : State, ∃ t, exec .tdec s = .next t
    ∧ (s.slot < Config.cfg.T → ∀ b, (inTxt Config.cfg s)[s.slot]? = some b →
        let d := decStep Config.cfg s.rxIn s.rxCode b
        t.rxIn = d.1 ∧ t.rxCode = d.2.1
        ∧ (∀ ch, d.2.2 = some ch → s.ctrl.getLsbD 2 = true →
            t.trace = s.trace ++ [.sinkCall ch s.cbctx])
        ∧ (d.2.2 = none ∨ s.ctrl.getLsbD 2 = false → t.trace = s.trace))
    ∧ (s.slot + 1 < Config.cfg.T → t.slot = s.slot + 1 ∧ t.seq = 0x6)
    ∧ (Config.cfg.T ≤ s.slot + 1 → t.slot = 0 ∧ t.seq = 0x7)
    ∧ (Config.cfg.T ≤ s.slot → t.rxIn = s.rxIn ∧ t.rxCode = s.rxCode ∧ t.trace = s.trace)
    ∧ { t with rxIn := s.rxIn, rxCode := s.rxCode, trace := s.trace, slot := s.slot,
               seq := s.seq } = s

/-- R92, R93: TENC in each of its cases: a pending bit; an idle slot without a source; a source that
has not answered (it waits); an answer `none` or a character without an entry; a fetched
character, whose first bit goes out in this slot. The last case, a TXT without slots, and the wait
are the model's reading (logs 10, 5). -/
def Obligations.TencFillsItsSlot : Prop :=
  ∀ s : State, ∃ t, exec .tenc s = .next t
    ∧ (s.slot < Config.cfg.D * Config.cfg.T →
        (0 < s.txN → ∀ b, s.txBits[s.txIdx]? = some b →
          t = slotEnds Config.cfg { s with txIdx := s.txIdx + 1, txN := s.txN - 1,
                                           trace := s.trace ++ [.textBit b] })
        ∧ (s.txN = 0 → s.ctrl.getLsbD 3 = false →
          t = slotEnds Config.cfg { s with trace := s.trace ++ [.textBit false] })
        ∧ (s.txN = 0 → s.ctrl.getLsbD 3 = true → s.env.txc = [] → t = s)
        ∧ (∀ a rest, s.txN = 0 → s.ctrl.getLsbD 3 = true → s.env.txc = a :: rest →
            (a = none ∨ ∃ ch, a = some ch ∧ pat Config.cfg ch = []) →
          t = slotEnds Config.cfg
            { s with env := { s.env with txc := rest }
                     trace := s.trace ++ [.sourceCall s.cbctx a, .textBit false] })
        ∧ (∀ ch rest b more, s.txN = 0 → s.ctrl.getLsbD 3 = true → s.env.txc = some ch :: rest →
            pat Config.cfg ch = b :: more →
          t = slotEnds Config.cfg
            { s with env := { s.env with txc := rest }
                     txBits := pat Config.cfg ch ++ s.txBits.drop (pat Config.cfg ch).length
                     txIdx := 1
                     txN := more.length
                     trace := s.trace ++ [.sourceCall s.cbctx (some ch), .textBit b] }))
    ∧ (Config.cfg.D * Config.cfg.T ≤ s.slot →
        t = { s with slot := 0, seq := Phase.idle, trace := s.trace ++ [.response false 0] })

/-- R97, the spec's own inference: zeros fed to an idle decoder yield no character and leave it idle. -/
def Obligations.IdleStreamStaysSilent : Prop :=
  ∀ (c : Config) (n : Nat), decodeStream c (false, []) (List.replicate n false) = []
    ∧ decoderAfter c (false, []) (List.replicate n false) = (false, [])

/-- R96, the spec's own inference: the characters come back. The source yields `chars` and then `none`; after enough slots the
emitted bits, cut into frames in any way, decode to exactly `chars`. -/
def Obligations.TextRoundTrip : Prop :=
  ∀ c : Config, c.WF → ∀ (s : State) (chars : List Char8) (idle n : Nat) (frames : List (List Bit)),
    (∀ ch ∈ chars, pat c ch ≠ []) →
    s.txN = 0 → s.ctrl.getLsbD 3 = true → s.txBits.length = c.TXT_CODE_MAX + 2 →
    s.env.txc = chars.map some ++ List.replicate idle none →
    n = (chars.map fun ch => (pat c ch).length).sum + idle →
    frames.flatten = textBits (((encodeSlot c)^[n] s).trace.drop s.trace.length) →
    frames.flatten.length = n ∧ decodeFrames c (false, []) frames = chars

/-! ### Statistics and verdict -/

/-- R130, R131: UWER counts the differing bits, adds to the raw statistics, saturating, and changes
nothing else. Where the count does not fit UWERR's 16 bits nothing is said of UWERR (log 9). -/
def Obligations.UwerCountsErrors : Prop :=
  ∀ s : State, s.lat.items.length = 3 + Config.cfg.U + 2 * Config.cfg.S + Config.cfg.T →
    let e := differing Config.cfg.U (fun i => (inUw Config.cfg s)[i]?)
      (fun i => Config.cfg.UW[i]?)
    ∃ t, exec .uwer s = .next t
      ∧ (e < 2 ^ 16 → t.uwerr.toNat = e)
      ∧ t.terrs.toNat = min (s.terrs.toNat + e) (2 ^ 32 - 1)
      ∧ t.tbits.toNat = min (s.tbits.toNat + Config.cfg.U) (2 ^ 32 - 1)
      ∧ t.seq = 0x8
      ∧ { t with uwerr := s.uwerr, terrs := s.terrs, tbits := s.tbits, seq := s.seq } = s

/-- R66, R134, R135: VERD responds with the verdict and sample count of the table, ends the command
and changes nothing else but the scratch, which it empties (log 12). -/
def Obligations.VerdictTable : Prop :=
  ∀ s : State, ∃ t w, exec .verd s = .next t
    ∧ t.trace = s.trace ++ [.response false w]
    ∧ t.seq = 0x0 ∧ t.lat = Latch.empty
    ∧ { t with trace := s.trace, seq := s.seq, lat := s.lat } = s
    ∧ w.getLsbD 19 = s.decoded ∧ w.extractLsb' 20 12 = 0
    ∧ (let all := s.pcc.toNat = Config.cfg.NPCHK
       let sqen := s.ctrl.getLsbD 1
       let low := (inSnrEst s).toInt < s.sqth.toInt
       let answer := fun (code : BitVec 3) (nout : Nat) =>
         w.extractLsb' 16 3 = code ∧ (w.extractLsb' 0 16).toNat = nout
       (s.lat.post = 0 → sqen = false → answer 0b111 (inNinCur s).toNat)
       ∧ (s.lat.post = 0 → sqen = true → answer 0 0)
       ∧ (s.lat.post = 1 → ¬all → sqen = false → answer 0b111 (inNinCur s).toNat)
       ∧ (s.lat.post = 1 → ¬all → sqen = true → answer 0 0)
       ∧ (s.lat.post = 1 → all → sqen = false → answer 1 Config.cfg.N_SPEECH)
       ∧ (s.lat.post = 1 → all → sqen = true → ¬low → answer 1 Config.cfg.N_SPEECH)
       ∧ (s.lat.post = 1 → all → sqen = true → low → answer 0 0)
       ∧ (s.lat.post = 2 → sqen = false → answer 1 Config.cfg.N_SPEECH)
       ∧ (s.lat.post = 2 → all → sqen = true → ¬low → answer 1 Config.cfg.N_SPEECH)
       ∧ (s.lat.post = 2 → ¬all → sqen = true → ¬low → answer 2 Config.cfg.N_SPEECH)
       ∧ (s.lat.post = 2 → sqen = true → low → answer 0 0))

/-- R135, the spec's own inference: with everything else fixed, a lower SNR leaves the verdict as it is or mutes it. -/
def Obligations.VerdictMonotoneInSnr : Prop :=
  ∀ (s t t' : State) (w w' : Word) (x : Code),
    let s' := { s with lat := { s.lat with items := s.lat.items.set 1 x } }
    (inSnrEst s').toInt ≤ (inSnrEst s).toInt →
    exec .verd s = .next t → t.trace = s.trace ++ [.response false w] →
    exec .verd s' = .next t' → t'.trace = s.trace ++ [.response false w'] →
    w' = w ∨ (w'.extractLsb' 16 3 = 0 ∧ w'.extractLsb' 0 16 = 0)

/-- R20, R131: within a session no step lowers a statistics accumulator. -/
def Obligations.CountersNeverDecrease : Prop :=
  ∀ s t : State, step s = .next t → s.env.rst = false → takesSrst s = false →
    s.tbits.toNat ≤ t.tbits.toNat ∧ s.terrs.toNat ≤ t.terrs.toNat
    ∧ s.tbitsc.toNat ≤ t.tbitsc.toNat ∧ s.terrsc.toNat ≤ t.terrsc.toNat

/-! ### Rules of the whole machine -/

/-- R26, R149: once an error is recorded no step within a session changes ERR. -/
def Obligations.FirstErrorSticks : Prop :=
  ∀ s t : State, step s = .next t → s.env.rst = false → takesSrst s = false → s.err ≠ 0 → t.err = s.err

/-- R49, R54, R66, R75: a command is taken only in IDLE, and the responses keep step with the
commands: commands taken and in progress are answered or still in progress. -/
def Obligations.OneResponsePerCommand : Prop :=
  ∀ s t : State, step s = .next t → s.env.rst = false →
    ∃ taken sent, s.env.cmd = taken ++ t.env.cmd ∧ t.trace = s.trace ++ sent
      ∧ taken.length + busy s = (responses sent).length + busy t
      ∧ taken.length ≤ 1
      ∧ (s.seq ≠ Phase.idle → taken = [])

/-- R52: who invokes the collaborators, and in what order. -/
def Obligations.CollaboratorsInvokedInOrder : Prop :=
  ∀ s t : State, step s = .next t → s.env.rst = false →
    ∃ sent, t.trace = s.trace ++ sent
      ∧ (∀ sym amp esno mean, .s2lCall sym amp esno mean ∈ sent →
          (s.seq = Phase.isyn ∧ s.ilvSynced = false ∧ Config.cfg.D ≤ s.fci + 1
            ∧ sent = decodeInvocations Config.cfg s 0)
          ∨ (s.seq = Phase.dsub ∧ s.subf < Config.cfg.D
            ∧ sent = decodeInvocations Config.cfg s s.subf))
      ∧ (∀ full, .decCall full ∈ sent → ∃ sym amp esno mean, .s2lCall sym amp esno mean ∈ sent)
      ∧ (∀ ch ctx, .sinkCall ch ctx ∈ sent →
          s.seq = Phase.tdec ∧ s.sinkEn = true ∧ sent = [.sinkCall ch s.cbctx])
      ∧ (∀ ctx a, .sourceCall ctx a ∈ sent → s.seq = Phase.tenc ∧ s.srcEn = true ∧ s.txN = 0
          ∧ ctx = s.cbctx ∧ s.env.txc = a :: t.env.txc)
      ∧ (∀ b, .textBit b ∈ sent → s.seq = Phase.tenc)

/-- R171, the spec's own inference: the encoder registers move only in TENC, and TENC moves no receive-side state. -/
def Obligations.TextSidesIndependent : Prop :=
  ∀ s t : State, step s = .next t → s.env.rst = false → takesSrst s = false →
    (s.seq ≠ Phase.tenc → t.txBits = s.txBits ∧ t.txIdx = s.txIdx ∧ t.txN = s.txN
      ∧ t.env.txc = s.env.txc)
    ∧ (s.seq = Phase.tenc →
        { t with txBits := s.txBits, txIdx := s.txIdx, txN := s.txN, env := s.env,
                 trace := s.trace, slot := s.slot, seq := s.seq } = s
        ∧ { t.env with txc := s.env.txc } = s.env)

/-- R40: the window is written by SHAP alone, OUTBUF by DSUB outside test mode alone. -/
def Obligations.StorageWriters : Prop :=
  ∀ s t : State, step s = .next t → s.env.rst = false → takesSrst s = false →
    (s.seq ≠ Phase.shap → t.winSym = s.winSym ∧ t.winAmp = s.winAmp)
    ∧ (s.seq ≠ Phase.dsub ∨ s.testMode = true → t.outbuf = s.outbuf)

/-- R30, the spec's own inference: who writes each status flag. -/
def Obligations.FlagWriters : Prop :=
  ∀ s t : State, step s = .next t → s.env.rst = false → takesSrst s = false →
    (t.ilvSynced ≠ s.ilvSynced → (s.seq = Phase.isyn ∧ t.ilvSynced = true)
      ∨ ((s.seq = Phase.gate ∨ s.seq = Phase.adv) ∧ t.ilvSynced = false))
    ∧ (t.decoded ≠ s.decoded → (s.seq = Phase.wchk ∧ t.decoded = true)
      ∨ (s.seq = Phase.gate ∧ t.decoded = false))
    ∧ (t.rxIn ≠ s.rxIn → s.seq = Phase.tdec)
    ∧ (t.err ≠ s.err → s.seq = Phase.idle)

/-- R24: PCC and ITER change only by a decoder invocation or when interleaver sync is dropped. -/
def Obligations.DecodeResultsPersist : Prop :=
  ∀ s t : State, step s = .next t → s.env.rst = false → takesSrst s = false →
    s.seq ≠ Phase.isyn → s.seq ≠ Phase.dsub → (t.pcc ≠ s.pcc ∨ t.iter ≠ s.iter) →
    t.pcc = 0 ∧ t.iter = 0 ∧ t.ilvSynced = false ∧ t.fci = 0
    ∧ ((s.seq = Phase.gate ∧ s.lat.gate = Phy.searching)
      ∨ (s.seq = Phase.adv ∧ s.lat.post = Phy.searching))

/-- R27, R34: within a session only a CSRW changes a configuration register. -/
def Obligations.ModesChangeOnlyByCsrw : Prop :=
  ∀ s t : State, step s = .next t → s.env.rst = false → takesSrst s = false →
    (t.ctrl ≠ s.ctrl ∨ t.sqth ≠ s.sqth ∨ t.esno ≠ s.esno ∨ t.cbctx ≠ s.cbctx) →
    s.seq = Phase.idle ∧ ∃ w rest csr value, s.env.cmd = w :: rest
      ∧ decodeCommand w = .ok (.csrw csr value) ∧ csr.toNat ≤ 0x03

/-! ### Whole commands -/

/-- R85: with its items queued and the outside accepting, the sequencer's steps from IDLE to IDLE
are the pseudocode of RXF. -/
def Obligations.RxfRunsItsMicroProgram : Prop :=
  ∀ (s : State) (rest : List Word) (phyGate phyPost : BitVec 2) (w : Word),
    Inv Config.cfg s → s.seq = Phase.idle → EnvOpen s.env →
    encode (.rxf phyGate phyPost) = .command w → s.env.cmd = w :: rest →
    neededItems Config.cfg phyGate ≤ s.env.din.length →
    ∃ k, Sys2Proof.core.run k s =
      .next (receiveCall Config.cfg phyGate phyPost { s with env := { s.env with cmd := rest } })

/-- R86: with an answer of the source queued for every slot and the outside accepting, the
sequencer's steps from IDLE to IDLE are the pseudocode of TXT. -/
def Obligations.TxtRunsItsSlots : Prop :=
  ∀ (s : State) (rest : List Word), Inv Config.cfg s → s.seq = Phase.idle → EnvOpen s.env →
    s.env.cmd = 0x11000000 :: rest → Config.cfg.D * Config.cfg.T ≤ s.env.txc.length →
    ∃ k, Sys2Proof.core.run k s =
      .next (transmitCall Config.cfg { s with env := { s.env with cmd := rest } })

/-- R101, R114, R134 (95_test_vectors.md S7): a receive call with the physical layer searching
throughout, step by step: pass-through of the block length or muted, sync dropped, all else kept. -/
def Obligations.SearchingCallScenario : Prop :=
  ∀ (s : State) (rest : List Word) (h0 h1 : Code) (more : List Code),
    Inv Config.cfg s → s.seq = Phase.idle → EnvOpen s.env →
    s.env.cmd = 0x10000000 :: rest → s.env.din = h0 :: h1 :: more →
    ∃ t w, Sys2Proof.core.run 4 s = .next t
      ∧ t.trace = s.trace ++ [.response false w]
      ∧ (s.ctrl.getLsbD 1 = false → w.toNat = 7 * 2 ^ 16 + h0 % 2 ^ 16)
      ∧ (s.ctrl.getLsbD 1 = true → w = 0)
      ∧ t.phy = 0 ∧ t.nin.toNat = h0 / 2 ^ 16 % 2 ^ 16 ∧ t.ilvSynced = false ∧ t.fci = 0
      ∧ t.pcc = 0 ∧ t.iter = 0 ∧ t.uwerr = 0 ∧ t.decoded = false
      ∧ t.env = { s.env with cmd := rest, din := more }
      ∧ { t with trace := s.trace, phy := s.phy, nin := s.nin, ilvSynced := s.ilvSynced,
                 fci := s.fci, pcc := s.pcc, iter := s.iter, uwerr := s.uwerr,
                 decoded := s.decoded, env := s.env } = s
end

