-- ==== Sys2Proof/Laws/Decode.lean ====
section
/-! SUPPORT. What the decoder can answer (spec/30_encoding.md R61, R65, R70, R76). -/

namespace Sys2Proof

/-- Two rows of the opcode map differ in a bit both masks look at: they can never both match. -/
def Row.disjoint (r q : Row) : Bool := (r.pattern ^^^ q.pattern) &&& r.mask &&& q.mask != 0

/-- No two rows of R61 overlap, so the order of the map does not matter. -/
theorem commandRows_disjoint :
    commandRows.Pairwise (fun r q => Row.disjoint r q = true) := by
  decide

/-- What a command word that decodes is. -/
theorem decodeCommand_cases {w : Word} {i : Instr} (h : decodeCommand w = .ok i) :
    (w = 0x00000000 ∧ i = .nop) ∨ (w = 0x01000000 ∧ i = .srst)
      ∨ (∃ csr value, i = .csrw csr value) ∨ (∃ csr, i = .csrr csr) ∨ (∃ index, i = .rdb index)
      ∨ (∃ phyGate phyPost, i = .rxf phyGate phyPost) ∨ (w = 0x11000000 ∧ i = .txt) := by
  have full : ∀ v : Word, v &&& 4294967295#32 = v := fun v => BitVec.and_allOnes (x := v)
  simp only [decodeCommand] at h
  split at h
  · rename_i r hr
    cases h
    have hs := List.find?_some hr
    have hm := List.mem_of_find?_eq_some hr
    simp only [commandRows, List.mem_cons, List.not_mem_nil, or_false] at hm
    rcases hm with rfl | rfl | rfl | rfl | rfl | rfl | rfl <;>
      simp_all [Row.selects]
  · cases h

theorem decodeCommand_isCommand {w : Word} {i : Instr} (h : decodeCommand w = .ok i) :
    i.isCommand = true := by
  rcases decodeCommand_cases h with ⟨-, rfl⟩ | ⟨-, rfl⟩ | ⟨_, _, rfl⟩ | ⟨_, rfl⟩ | ⟨_, rfl⟩ |
    ⟨_, _, rfl⟩ | ⟨-, rfl⟩ <;> rfl

/-- The only refusal of a command word is IllegalCommand. -/
theorem decodeCommand_error {w : Word} {e : DecodeError} (h : decodeCommand w = .error e) :
    e = .illegalCommand := by
  simp only [decodeCommand] at h
  split at h <;> simp_all

/-- What a value of `SEQ` that decodes is (R70). -/
theorem decodePhase_cases {p : BitVec 4} {i : Instr} (h : decodePhase p = .ok i) :
    (p = Phase.idle ∧ i = .idle) ∨ (p = Phase.gate ∧ i = .gate) ∨ (p = Phase.shap ∧ i = .shap)
      ∨ (p = Phase.isyn ∧ i = .isyn) ∨ (p = Phase.wchk ∧ i = .wchk) ∨ (p = Phase.dsub ∧ i = .dsub)
      ∨ (p = Phase.tdec ∧ i = .tdec) ∨ (p = Phase.uwer ∧ i = .uwer) ∨ (p = Phase.adv ∧ i = .adv)
      ∨ (p = Phase.verd ∧ i = .verd) ∨ (p = Phase.tenc ∧ i = .tenc) := by
  have all : ∀ p : BitVec 4, ∀ i ∈ (decodePhase p).toOption,
      (p = Phase.idle ∧ i = .idle) ∨ (p = Phase.gate ∧ i = .gate) ∨ (p = Phase.shap ∧ i = .shap)
      ∨ (p = Phase.isyn ∧ i = .isyn) ∨ (p = Phase.wchk ∧ i = .wchk) ∨ (p = Phase.dsub ∧ i = .dsub)
      ∨ (p = Phase.tdec ∧ i = .tdec) ∨ (p = Phase.uwer ∧ i = .uwer) ∨ (p = Phase.adv ∧ i = .adv)
      ∨ (p = Phase.verd ∧ i = .verd) ∨ (p = Phase.tenc ∧ i = .tenc) := by
    decide
  exact all p i (by rw [h]; rfl)

/-- The operand checks of R76 are exactly well-formedness. -/
theorem operandError_none_iff (c : Config) (i : Instr) :
    operandError c i = none ↔ i.wellFormed c = true := by
  cases i <;> simp [operandError, Instr.wellFormed]

end Sys2Proof
end

