-- ==== Sys2Proof/Laws/State.lean ====
section
/-! SUPPORT. One lemma for each field under each named update of the state, true by `rfl`, so that
no later proof unfolds a record update. -/

namespace Sys2Proof.Machine

/-! ### `State.send` -/

@[simp] theorem State.send_winSym (s : State) (es : List Event) :
    (s.send es).winSym = s.winSym := rfl
@[simp] theorem State.send_winAmp (s : State) (es : List Event) :
    (s.send es).winAmp = s.winAmp := rfl
@[simp] theorem State.send_ilvSynced (s : State) (es : List Event) :
    (s.send es).ilvSynced = s.ilvSynced := rfl
@[simp] theorem State.send_fci (s : State) (es : List Event) : (s.send es).fci = s.fci := rfl
@[simp] theorem State.send_txBits (s : State) (es : List Event) :
    (s.send es).txBits = s.txBits := rfl
@[simp] theorem State.send_txIdx (s : State) (es : List Event) : (s.send es).txIdx = s.txIdx := rfl
@[simp] theorem State.send_txN (s : State) (es : List Event) : (s.send es).txN = s.txN := rfl
@[simp] theorem State.send_rxIn (s : State) (es : List Event) : (s.send es).rxIn = s.rxIn := rfl
@[simp] theorem State.send_rxCode (s : State) (es : List Event) :
    (s.send es).rxCode = s.rxCode := rfl
@[simp] theorem State.send_tbits (s : State) (es : List Event) : (s.send es).tbits = s.tbits := rfl
@[simp] theorem State.send_terrs (s : State) (es : List Event) : (s.send es).terrs = s.terrs := rfl
@[simp] theorem State.send_tbitsc (s : State) (es : List Event) :
    (s.send es).tbitsc = s.tbitsc := rfl
@[simp] theorem State.send_terrsc (s : State) (es : List Event) :
    (s.send es).terrsc = s.terrsc := rfl
@[simp] theorem State.send_outbuf (s : State) (es : List Event) :
    (s.send es).outbuf = s.outbuf := rfl
@[simp] theorem State.send_phy (s : State) (es : List Event) : (s.send es).phy = s.phy := rfl
@[simp] theorem State.send_nin (s : State) (es : List Event) : (s.send es).nin = s.nin := rfl
@[simp] theorem State.send_pcc (s : State) (es : List Event) : (s.send es).pcc = s.pcc := rfl
@[simp] theorem State.send_iter (s : State) (es : List Event) : (s.send es).iter = s.iter := rfl
@[simp] theorem State.send_uwerr (s : State) (es : List Event) : (s.send es).uwerr = s.uwerr := rfl
@[simp] theorem State.send_decoded (s : State) (es : List Event) :
    (s.send es).decoded = s.decoded := rfl
@[simp] theorem State.send_err (s : State) (es : List Event) : (s.send es).err = s.err := rfl
@[simp] theorem State.send_ctrl (s : State) (es : List Event) : (s.send es).ctrl = s.ctrl := rfl
@[simp] theorem State.send_sqth (s : State) (es : List Event) : (s.send es).sqth = s.sqth := rfl
@[simp] theorem State.send_esno (s : State) (es : List Event) : (s.send es).esno = s.esno := rfl
@[simp] theorem State.send_cbctx (s : State) (es : List Event) : (s.send es).cbctx = s.cbctx := rfl
@[simp] theorem State.send_seq (s : State) (es : List Event) : (s.send es).seq = s.seq := rfl
@[simp] theorem State.send_subf (s : State) (es : List Event) : (s.send es).subf = s.subf := rfl
@[simp] theorem State.send_slot (s : State) (es : List Event) : (s.send es).slot = s.slot := rfl
@[simp] theorem State.send_lat (s : State) (es : List Event) : (s.send es).lat = s.lat := rfl
@[simp] theorem State.send_env (s : State) (es : List Event) : (s.send es).env = s.env := rfl
@[simp] theorem State.send_trace (s : State) (es : List Event) :
    (s.send es).trace = s.trace ++ es := rfl

/-! ### `State.goto` -/

@[simp] theorem State.goto_winSym (s : State) (p : BitVec 4) : (s.goto p).winSym = s.winSym := rfl
@[simp] theorem State.goto_winAmp (s : State) (p : BitVec 4) : (s.goto p).winAmp = s.winAmp := rfl
@[simp] theorem State.goto_ilvSynced (s : State) (p : BitVec 4) :
    (s.goto p).ilvSynced = s.ilvSynced := rfl
@[simp] theorem State.goto_fci (s : State) (p : BitVec 4) : (s.goto p).fci = s.fci := rfl
@[simp] theorem State.goto_txBits (s : State) (p : BitVec 4) : (s.goto p).txBits = s.txBits := rfl
@[simp] theorem State.goto_txIdx (s : State) (p : BitVec 4) : (s.goto p).txIdx = s.txIdx := rfl
@[simp] theorem State.goto_txN (s : State) (p : BitVec 4) : (s.goto p).txN = s.txN := rfl
@[simp] theorem State.goto_rxIn (s : State) (p : BitVec 4) : (s.goto p).rxIn = s.rxIn := rfl
@[simp] theorem State.goto_rxCode (s : State) (p : BitVec 4) : (s.goto p).rxCode = s.rxCode := rfl
@[simp] theorem State.goto_tbits (s : State) (p : BitVec 4) : (s.goto p).tbits = s.tbits := rfl
@[simp] theorem State.goto_terrs (s : State) (p : BitVec 4) : (s.goto p).terrs = s.terrs := rfl
@[simp] theorem State.goto_tbitsc (s : State) (p : BitVec 4) : (s.goto p).tbitsc = s.tbitsc := rfl
@[simp] theorem State.goto_terrsc (s : State) (p : BitVec 4) : (s.goto p).terrsc = s.terrsc := rfl
@[simp] theorem State.goto_outbuf (s : State) (p : BitVec 4) : (s.goto p).outbuf = s.outbuf := rfl
@[simp] theorem State.goto_phy (s : State) (p : BitVec 4) : (s.goto p).phy = s.phy := rfl
@[simp] theorem State.goto_nin (s : State) (p : BitVec 4) : (s.goto p).nin = s.nin := rfl
@[simp] theorem State.goto_pcc (s : State) (p : BitVec 4) : (s.goto p).pcc = s.pcc := rfl
@[simp] theorem State.goto_iter (s : State) (p : BitVec 4) : (s.goto p).iter = s.iter := rfl
@[simp] theorem State.goto_uwerr (s : State) (p : BitVec 4) : (s.goto p).uwerr = s.uwerr := rfl
@[simp] theorem State.goto_decoded (s : State) (p : BitVec 4) :
    (s.goto p).decoded = s.decoded := rfl
@[simp] theorem State.goto_err (s : State) (p : BitVec 4) : (s.goto p).err = s.err := rfl
@[simp] theorem State.goto_ctrl (s : State) (p : BitVec 4) : (s.goto p).ctrl = s.ctrl := rfl
@[simp] theorem State.goto_sqth (s : State) (p : BitVec 4) : (s.goto p).sqth = s.sqth := rfl
@[simp] theorem State.goto_esno (s : State) (p : BitVec 4) : (s.goto p).esno = s.esno := rfl
@[simp] theorem State.goto_cbctx (s : State) (p : BitVec 4) : (s.goto p).cbctx = s.cbctx := rfl
@[simp] theorem State.goto_seq (s : State) (p : BitVec 4) : (s.goto p).seq = p := rfl
@[simp] theorem State.goto_subf (s : State) (p : BitVec 4) : (s.goto p).subf = s.subf := rfl
@[simp] theorem State.goto_slot (s : State) (p : BitVec 4) : (s.goto p).slot = s.slot := rfl
@[simp] theorem State.goto_lat (s : State) (p : BitVec 4) : (s.goto p).lat = s.lat := rfl
@[simp] theorem State.goto_env (s : State) (p : BitVec 4) : (s.goto p).env = s.env := rfl
@[simp] theorem State.goto_trace (s : State) (p : BitVec 4) : (s.goto p).trace = s.trace := rfl

/-! ### `State.dropSync` -/

@[simp] theorem State.dropSync_winSym (s : State) : (s.dropSync).winSym = s.winSym := rfl
@[simp] theorem State.dropSync_winAmp (s : State) : (s.dropSync).winAmp = s.winAmp := rfl
@[simp] theorem State.dropSync_ilvSynced (s : State) : (s.dropSync).ilvSynced = false := rfl
@[simp] theorem State.dropSync_fci (s : State) : (s.dropSync).fci = 0 := rfl
@[simp] theorem State.dropSync_txBits (s : State) : (s.dropSync).txBits = s.txBits := rfl
@[simp] theorem State.dropSync_txIdx (s : State) : (s.dropSync).txIdx = s.txIdx := rfl
@[simp] theorem State.dropSync_txN (s : State) : (s.dropSync).txN = s.txN := rfl
@[simp] theorem State.dropSync_rxIn (s : State) : (s.dropSync).rxIn = s.rxIn := rfl
@[simp] theorem State.dropSync_rxCode (s : State) : (s.dropSync).rxCode = s.rxCode := rfl
@[simp] theorem State.dropSync_tbits (s : State) : (s.dropSync).tbits = s.tbits := rfl
@[simp] theorem State.dropSync_terrs (s : State) : (s.dropSync).terrs = s.terrs := rfl
@[simp] theorem State.dropSync_tbitsc (s : State) : (s.dropSync).tbitsc = s.tbitsc := rfl
@[simp] theorem State.dropSync_terrsc (s : State) : (s.dropSync).terrsc = s.terrsc := rfl
@[simp] theorem State.dropSync_outbuf (s : State) : (s.dropSync).outbuf = s.outbuf := rfl
@[simp] theorem State.dropSync_phy (s : State) : (s.dropSync).phy = s.phy := rfl
@[simp] theorem State.dropSync_nin (s : State) : (s.dropSync).nin = s.nin := rfl
@[simp] theorem State.dropSync_pcc (s : State) : (s.dropSync).pcc = 0 := rfl
@[simp] theorem State.dropSync_iter (s : State) : (s.dropSync).iter = 0 := rfl
@[simp] theorem State.dropSync_uwerr (s : State) : (s.dropSync).uwerr = s.uwerr := rfl
@[simp] theorem State.dropSync_decoded (s : State) : (s.dropSync).decoded = s.decoded := rfl
@[simp] theorem State.dropSync_err (s : State) : (s.dropSync).err = s.err := rfl
@[simp] theorem State.dropSync_ctrl (s : State) : (s.dropSync).ctrl = s.ctrl := rfl
@[simp] theorem State.dropSync_sqth (s : State) : (s.dropSync).sqth = s.sqth := rfl
@[simp] theorem State.dropSync_esno (s : State) : (s.dropSync).esno = s.esno := rfl
@[simp] theorem State.dropSync_cbctx (s : State) : (s.dropSync).cbctx = s.cbctx := rfl
@[simp] theorem State.dropSync_seq (s : State) : (s.dropSync).seq = s.seq := rfl
@[simp] theorem State.dropSync_subf (s : State) : (s.dropSync).subf = s.subf := rfl
@[simp] theorem State.dropSync_slot (s : State) : (s.dropSync).slot = s.slot := rfl
@[simp] theorem State.dropSync_lat (s : State) : (s.dropSync).lat = s.lat := rfl
@[simp] theorem State.dropSync_env (s : State) : (s.dropSync).env = s.env := rfl
@[simp] theorem State.dropSync_trace (s : State) : (s.dropSync).trace = s.trace := rfl

/-! ### `respond` -/

@[simp] theorem respond_winSym (w : Word) (s : State) : (respond w s).winSym = s.winSym := rfl
@[simp] theorem respond_winAmp (w : Word) (s : State) : (respond w s).winAmp = s.winAmp := rfl
@[simp] theorem respond_ilvSynced (w : Word) (s : State) :
    (respond w s).ilvSynced = s.ilvSynced := rfl
@[simp] theorem respond_fci (w : Word) (s : State) : (respond w s).fci = s.fci := rfl
@[simp] theorem respond_txBits (w : Word) (s : State) : (respond w s).txBits = s.txBits := rfl
@[simp] theorem respond_txIdx (w : Word) (s : State) : (respond w s).txIdx = s.txIdx := rfl
@[simp] theorem respond_txN (w : Word) (s : State) : (respond w s).txN = s.txN := rfl
@[simp] theorem respond_rxIn (w : Word) (s : State) : (respond w s).rxIn = s.rxIn := rfl
@[simp] theorem respond_rxCode (w : Word) (s : State) : (respond w s).rxCode = s.rxCode := rfl
@[simp] theorem respond_tbits (w : Word) (s : State) : (respond w s).tbits = s.tbits := rfl
@[simp] theorem respond_terrs (w : Word) (s : State) : (respond w s).terrs = s.terrs := rfl
@[simp] theorem respond_tbitsc (w : Word) (s : State) : (respond w s).tbitsc = s.tbitsc := rfl
@[simp] theorem respond_terrsc (w : Word) (s : State) : (respond w s).terrsc = s.terrsc := rfl
@[simp] theorem respond_outbuf (w : Word) (s : State) : (respond w s).outbuf = s.outbuf := rfl
@[simp] theorem respond_phy (w : Word) (s : State) : (respond w s).phy = s.phy := rfl
@[simp] theorem respond_nin (w : Word) (s : State) : (respond w s).nin = s.nin := rfl
@[simp] theorem respond_pcc (w : Word) (s : State) : (respond w s).pcc = s.pcc := rfl
@[simp] theorem respond_iter (w : Word) (s : State) : (respond w s).iter = s.iter := rfl
@[simp] theorem respond_uwerr (w : Word) (s : State) : (respond w s).uwerr = s.uwerr := rfl
@[simp] theorem respond_decoded (w : Word) (s : State) : (respond w s).decoded = s.decoded := rfl
@[simp] theorem respond_err (w : Word) (s : State) : (respond w s).err = s.err := rfl
@[simp] theorem respond_ctrl (w : Word) (s : State) : (respond w s).ctrl = s.ctrl := rfl
@[simp] theorem respond_sqth (w : Word) (s : State) : (respond w s).sqth = s.sqth := rfl
@[simp] theorem respond_esno (w : Word) (s : State) : (respond w s).esno = s.esno := rfl
@[simp] theorem respond_cbctx (w : Word) (s : State) : (respond w s).cbctx = s.cbctx := rfl
@[simp] theorem respond_seq (w : Word) (s : State) : (respond w s).seq = s.seq := rfl
@[simp] theorem respond_subf (w : Word) (s : State) : (respond w s).subf = s.subf := rfl
@[simp] theorem respond_slot (w : Word) (s : State) : (respond w s).slot = s.slot := rfl
@[simp] theorem respond_lat (w : Word) (s : State) : (respond w s).lat = s.lat := rfl
@[simp] theorem respond_env (w : Word) (s : State) : (respond w s).env = s.env := rfl
@[simp] theorem respond_trace (w : Word) (s : State) :
    (respond w s).trace = s.trace ++ [.response false w] := rfl

/-! ### `raiseError` -/

@[simp] theorem raiseError_winSym (e : HostError) (s : State) :
    (raiseError e s).winSym = s.winSym := rfl
@[simp] theorem raiseError_winAmp (e : HostError) (s : State) :
    (raiseError e s).winAmp = s.winAmp := rfl
@[simp] theorem raiseError_ilvSynced (e : HostError) (s : State) :
    (raiseError e s).ilvSynced = s.ilvSynced := rfl
@[simp] theorem raiseError_fci (e : HostError) (s : State) : (raiseError e s).fci = s.fci := rfl
@[simp] theorem raiseError_txBits (e : HostError) (s : State) :
    (raiseError e s).txBits = s.txBits := rfl
@[simp] theorem raiseError_txIdx (e : HostError) (s : State) :
    (raiseError e s).txIdx = s.txIdx := rfl
@[simp] theorem raiseError_txN (e : HostError) (s : State) : (raiseError e s).txN = s.txN := rfl
@[simp] theorem raiseError_rxIn (e : HostError) (s : State) : (raiseError e s).rxIn = s.rxIn := rfl
@[simp] theorem raiseError_rxCode (e : HostError) (s : State) :
    (raiseError e s).rxCode = s.rxCode := rfl
@[simp] theorem raiseError_tbits (e : HostError) (s : State) :
    (raiseError e s).tbits = s.tbits := rfl
@[simp] theorem raiseError_terrs (e : HostError) (s : State) :
    (raiseError e s).terrs = s.terrs := rfl
@[simp] theorem raiseError_tbitsc (e : HostError) (s : State) :
    (raiseError e s).tbitsc = s.tbitsc := rfl
@[simp] theorem raiseError_terrsc (e : HostError) (s : State) :
    (raiseError e s).terrsc = s.terrsc := rfl
@[simp] theorem raiseError_outbuf (e : HostError) (s : State) :
    (raiseError e s).outbuf = s.outbuf := rfl
@[simp] theorem raiseError_phy (e : HostError) (s : State) : (raiseError e s).phy = s.phy := rfl
@[simp] theorem raiseError_nin (e : HostError) (s : State) : (raiseError e s).nin = s.nin := rfl
@[simp] theorem raiseError_pcc (e : HostError) (s : State) : (raiseError e s).pcc = s.pcc := rfl
@[simp] theorem raiseError_iter (e : HostError) (s : State) : (raiseError e s).iter = s.iter := rfl
@[simp] theorem raiseError_uwerr (e : HostError) (s : State) :
    (raiseError e s).uwerr = s.uwerr := rfl
@[simp] theorem raiseError_decoded (e : HostError) (s : State) :
    (raiseError e s).decoded = s.decoded := rfl
@[simp] theorem raiseError_err (e : HostError) (s : State) :
    (raiseError e s).err = if s.err = 0 then errorCode e else s.err := rfl
@[simp] theorem raiseError_ctrl (e : HostError) (s : State) : (raiseError e s).ctrl = s.ctrl := rfl
@[simp] theorem raiseError_sqth (e : HostError) (s : State) : (raiseError e s).sqth = s.sqth := rfl
@[simp] theorem raiseError_esno (e : HostError) (s : State) : (raiseError e s).esno = s.esno := rfl
@[simp] theorem raiseError_cbctx (e : HostError) (s : State) :
    (raiseError e s).cbctx = s.cbctx := rfl
@[simp] theorem raiseError_seq (e : HostError) (s : State) : (raiseError e s).seq = s.seq := rfl
@[simp] theorem raiseError_subf (e : HostError) (s : State) : (raiseError e s).subf = s.subf := rfl
@[simp] theorem raiseError_slot (e : HostError) (s : State) : (raiseError e s).slot = s.slot := rfl
@[simp] theorem raiseError_lat (e : HostError) (s : State) : (raiseError e s).lat = s.lat := rfl
@[simp] theorem raiseError_env (e : HostError) (s : State) : (raiseError e s).env = s.env := rfl
@[simp] theorem raiseError_trace (e : HostError) (s : State) :
    (raiseError e s).trace = s.trace ++ [.response true ((errorCode e).zeroExtend 32)] := rfl

/-! ### `State.sessionReset` -/

@[simp] theorem State.sessionReset_winSym (c : Config) (s : State) :
    (s.sessionReset c).winSym = (State.resetOn c).winSym := rfl
@[simp] theorem State.sessionReset_winAmp (c : Config) (s : State) :
    (s.sessionReset c).winAmp = (State.resetOn c).winAmp := rfl
@[simp] theorem State.sessionReset_ilvSynced (c : Config) (s : State) :
    (s.sessionReset c).ilvSynced = (State.resetOn c).ilvSynced := rfl
@[simp] theorem State.sessionReset_fci (c : Config) (s : State) :
    (s.sessionReset c).fci = (State.resetOn c).fci := rfl
@[simp] theorem State.sessionReset_txBits (c : Config) (s : State) :
    (s.sessionReset c).txBits = (State.resetOn c).txBits := rfl
@[simp] theorem State.sessionReset_txIdx (c : Config) (s : State) :
    (s.sessionReset c).txIdx = (State.resetOn c).txIdx := rfl
@[simp] theorem State.sessionReset_txN (c : Config) (s : State) :
    (s.sessionReset c).txN = (State.resetOn c).txN := rfl
@[simp] theorem State.sessionReset_rxIn (c : Config) (s : State) :
    (s.sessionReset c).rxIn = (State.resetOn c).rxIn := rfl
@[simp] theorem State.sessionReset_rxCode (c : Config) (s : State) :
    (s.sessionReset c).rxCode = (State.resetOn c).rxCode := rfl
@[simp] theorem State.sessionReset_tbits (c : Config) (s : State) :
    (s.sessionReset c).tbits = (State.resetOn c).tbits := rfl
@[simp] theorem State.sessionReset_terrs (c : Config) (s : State) :
    (s.sessionReset c).terrs = (State.resetOn c).terrs := rfl
@[simp] theorem State.sessionReset_tbitsc (c : Config) (s : State) :
    (s.sessionReset c).tbitsc = (State.resetOn c).tbitsc := rfl
@[simp] theorem State.sessionReset_terrsc (c : Config) (s : State) :
    (s.sessionReset c).terrsc = (State.resetOn c).terrsc := rfl
@[simp] theorem State.sessionReset_outbuf (c : Config) (s : State) :
    (s.sessionReset c).outbuf = (State.resetOn c).outbuf := rfl
@[simp] theorem State.sessionReset_phy (c : Config) (s : State) :
    (s.sessionReset c).phy = (State.resetOn c).phy := rfl
@[simp] theorem State.sessionReset_nin (c : Config) (s : State) :
    (s.sessionReset c).nin = (State.resetOn c).nin := rfl
@[simp] theorem State.sessionReset_pcc (c : Config) (s : State) :
    (s.sessionReset c).pcc = (State.resetOn c).pcc := rfl
@[simp] theorem State.sessionReset_iter (c : Config) (s : State) :
    (s.sessionReset c).iter = (State.resetOn c).iter := rfl
@[simp] theorem State.sessionReset_uwerr (c : Config) (s : State) :
    (s.sessionReset c).uwerr = (State.resetOn c).uwerr := rfl
@[simp] theorem State.sessionReset_decoded (c : Config) (s : State) :
    (s.sessionReset c).decoded = (State.resetOn c).decoded := rfl
@[simp] theorem State.sessionReset_err (c : Config) (s : State) :
    (s.sessionReset c).err = (State.resetOn c).err := rfl
@[simp] theorem State.sessionReset_ctrl (c : Config) (s : State) :
    (s.sessionReset c).ctrl = (State.resetOn c).ctrl := rfl
@[simp] theorem State.sessionReset_sqth (c : Config) (s : State) :
    (s.sessionReset c).sqth = (State.resetOn c).sqth := rfl
@[simp] theorem State.sessionReset_esno (c : Config) (s : State) :
    (s.sessionReset c).esno = (State.resetOn c).esno := rfl
@[simp] theorem State.sessionReset_cbctx (c : Config) (s : State) :
    (s.sessionReset c).cbctx = (State.resetOn c).cbctx := rfl
@[simp] theorem State.sessionReset_seq (c : Config) (s : State) :
    (s.sessionReset c).seq = (State.resetOn c).seq := rfl
@[simp] theorem State.sessionReset_subf (c : Config) (s : State) :
    (s.sessionReset c).subf = (State.resetOn c).subf := rfl
@[simp] theorem State.sessionReset_slot (c : Config) (s : State) :
    (s.sessionReset c).slot = (State.resetOn c).slot := rfl
@[simp] theorem State.sessionReset_lat (c : Config) (s : State) :
    (s.sessionReset c).lat = (State.resetOn c).lat := rfl
@[simp] theorem State.sessionReset_env (c : Config) (s : State) :
    (s.sessionReset c).env = s.env := rfl
@[simp] theorem State.sessionReset_trace (c : Config) (s : State) :
    (s.sessionReset c).trace = s.trace := rfl

/-! ### `State.decodeSub` -/

@[simp] theorem State.decodeSub_winSym (c : Config) (s : State) (j : Nat) :
    (s.decodeSub c j).winSym = s.winSym := rfl
@[simp] theorem State.decodeSub_winAmp (c : Config) (s : State) (j : Nat) :
    (s.decodeSub c j).winAmp = s.winAmp := rfl
@[simp] theorem State.decodeSub_ilvSynced (c : Config) (s : State) (j : Nat) :
    (s.decodeSub c j).ilvSynced = s.ilvSynced := rfl
@[simp] theorem State.decodeSub_fci (c : Config) (s : State) (j : Nat) :
    (s.decodeSub c j).fci = s.fci := rfl
@[simp] theorem State.decodeSub_txBits (c : Config) (s : State) (j : Nat) :
    (s.decodeSub c j).txBits = s.txBits := rfl
@[simp] theorem State.decodeSub_txIdx (c : Config) (s : State) (j : Nat) :
    (s.decodeSub c j).txIdx = s.txIdx := rfl
@[simp] theorem State.decodeSub_txN (c : Config) (s : State) (j : Nat) :
    (s.decodeSub c j).txN = s.txN := rfl
@[simp] theorem State.decodeSub_rxIn (c : Config) (s : State) (j : Nat) :
    (s.decodeSub c j).rxIn = s.rxIn := rfl
@[simp] theorem State.decodeSub_rxCode (c : Config) (s : State) (j : Nat) :
    (s.decodeSub c j).rxCode = s.rxCode := rfl
@[simp] theorem State.decodeSub_tbits (c : Config) (s : State) (j : Nat) :
    (s.decodeSub c j).tbits = s.tbits := rfl
@[simp] theorem State.decodeSub_terrs (c : Config) (s : State) (j : Nat) :
    (s.decodeSub c j).terrs = s.terrs := rfl
@[simp] theorem State.decodeSub_tbitsc (c : Config) (s : State) (j : Nat) :
    (s.decodeSub c j).tbitsc = s.tbitsc := rfl
@[simp] theorem State.decodeSub_terrsc (c : Config) (s : State) (j : Nat) :
    (s.decodeSub c j).terrsc = s.terrsc := rfl
@[simp] theorem State.decodeSub_outbuf (c : Config) (s : State) (j : Nat) :
    (s.decodeSub c j).outbuf = s.outbuf := rfl
@[simp] theorem State.decodeSub_phy (c : Config) (s : State) (j : Nat) :
    (s.decodeSub c j).phy = s.phy := rfl
@[simp] theorem State.decodeSub_nin (c : Config) (s : State) (j : Nat) :
    (s.decodeSub c j).nin = s.nin := rfl
@[simp] theorem State.decodeSub_pcc (c : Config) (s : State) (j : Nat) :
    (s.decodeSub c j).pcc = BitVec.ofNat 16 (fecDecode c s j).pcc := rfl
@[simp] theorem State.decodeSub_iter (c : Config) (s : State) (j : Nat) :
    (s.decodeSub c j).iter = BitVec.ofNat 16 (fecDecode c s j).iter := rfl
@[simp] theorem State.decodeSub_uwerr (c : Config) (s : State) (j : Nat) :
    (s.decodeSub c j).uwerr = s.uwerr := rfl
@[simp] theorem State.decodeSub_decoded (c : Config) (s : State) (j : Nat) :
    (s.decodeSub c j).decoded = s.decoded := rfl
@[simp] theorem State.decodeSub_err (c : Config) (s : State) (j : Nat) :
    (s.decodeSub c j).err = s.err := rfl
@[simp] theorem State.decodeSub_ctrl (c : Config) (s : State) (j : Nat) :
    (s.decodeSub c j).ctrl = s.ctrl := rfl
@[simp] theorem State.decodeSub_sqth (c : Config) (s : State) (j : Nat) :
    (s.decodeSub c j).sqth = s.sqth := rfl
@[simp] theorem State.decodeSub_esno (c : Config) (s : State) (j : Nat) :
    (s.decodeSub c j).esno = s.esno := rfl
@[simp] theorem State.decodeSub_cbctx (c : Config) (s : State) (j : Nat) :
    (s.decodeSub c j).cbctx = s.cbctx := rfl
@[simp] theorem State.decodeSub_seq (c : Config) (s : State) (j : Nat) :
    (s.decodeSub c j).seq = s.seq := rfl
@[simp] theorem State.decodeSub_subf (c : Config) (s : State) (j : Nat) :
    (s.decodeSub c j).subf = s.subf := rfl
@[simp] theorem State.decodeSub_slot (c : Config) (s : State) (j : Nat) :
    (s.decodeSub c j).slot = s.slot := rfl
@[simp] theorem State.decodeSub_lat (c : Config) (s : State) (j : Nat) :
    (s.decodeSub c j).lat = s.lat := rfl
@[simp] theorem State.decodeSub_env (c : Config) (s : State) (j : Nat) :
    (s.decodeSub c j).env = s.env := rfl
@[simp] theorem State.decodeSub_trace (c : Config) (s : State) (j : Nat) :
    (s.decodeSub c j).trace = s.trace ++ fecEvents c s j := rfl

/-! ### `takeItems` -/

@[simp] theorem takeItems_winSym (c : Config) (s : State) : (takeItems c s).winSym = s.winSym := rfl
@[simp] theorem takeItems_winAmp (c : Config) (s : State) : (takeItems c s).winAmp = s.winAmp := rfl
@[simp] theorem takeItems_ilvSynced (c : Config) (s : State) :
    (takeItems c s).ilvSynced = s.ilvSynced := rfl
@[simp] theorem takeItems_fci (c : Config) (s : State) : (takeItems c s).fci = s.fci := rfl
@[simp] theorem takeItems_txBits (c : Config) (s : State) : (takeItems c s).txBits = s.txBits := rfl
@[simp] theorem takeItems_txIdx (c : Config) (s : State) : (takeItems c s).txIdx = s.txIdx := rfl
@[simp] theorem takeItems_txN (c : Config) (s : State) : (takeItems c s).txN = s.txN := rfl
@[simp] theorem takeItems_rxIn (c : Config) (s : State) : (takeItems c s).rxIn = s.rxIn := rfl
@[simp] theorem takeItems_rxCode (c : Config) (s : State) : (takeItems c s).rxCode = s.rxCode := rfl
@[simp] theorem takeItems_tbits (c : Config) (s : State) : (takeItems c s).tbits = s.tbits := rfl
@[simp] theorem takeItems_terrs (c : Config) (s : State) : (takeItems c s).terrs = s.terrs := rfl
@[simp] theorem takeItems_tbitsc (c : Config) (s : State) : (takeItems c s).tbitsc = s.tbitsc := rfl
@[simp] theorem takeItems_terrsc (c : Config) (s : State) : (takeItems c s).terrsc = s.terrsc := rfl
@[simp] theorem takeItems_outbuf (c : Config) (s : State) : (takeItems c s).outbuf = s.outbuf := rfl
@[simp] theorem takeItems_phy (c : Config) (s : State) : (takeItems c s).phy = s.phy := rfl
@[simp] theorem takeItems_nin (c : Config) (s : State) : (takeItems c s).nin = s.nin := rfl
@[simp] theorem takeItems_pcc (c : Config) (s : State) : (takeItems c s).pcc = s.pcc := rfl
@[simp] theorem takeItems_iter (c : Config) (s : State) : (takeItems c s).iter = s.iter := rfl
@[simp] theorem takeItems_uwerr (c : Config) (s : State) : (takeItems c s).uwerr = s.uwerr := rfl
@[simp] theorem takeItems_decoded (c : Config) (s : State) :
    (takeItems c s).decoded = s.decoded := rfl
@[simp] theorem takeItems_err (c : Config) (s : State) : (takeItems c s).err = s.err := rfl
@[simp] theorem takeItems_ctrl (c : Config) (s : State) : (takeItems c s).ctrl = s.ctrl := rfl
@[simp] theorem takeItems_sqth (c : Config) (s : State) : (takeItems c s).sqth = s.sqth := rfl
@[simp] theorem takeItems_esno (c : Config) (s : State) : (takeItems c s).esno = s.esno := rfl
@[simp] theorem takeItems_cbctx (c : Config) (s : State) : (takeItems c s).cbctx = s.cbctx := rfl
@[simp] theorem takeItems_seq (c : Config) (s : State) : (takeItems c s).seq = s.seq := rfl
@[simp] theorem takeItems_subf (c : Config) (s : State) : (takeItems c s).subf = s.subf := rfl
@[simp] theorem takeItems_slot (c : Config) (s : State) : (takeItems c s).slot = s.slot := rfl
@[simp] theorem takeItems_lat (c : Config) (s : State) :
    (takeItems c s).lat = { s.lat with items := s.lat.items ++ s.env.din.take (neededItems c s.lat.gate - s.lat.items.length) } := rfl
@[simp] theorem takeItems_env (c : Config) (s : State) :
    (takeItems c s).env = { s.env with din := s.env.din.drop (neededItems c s.lat.gate - s.lat.items.length) } := rfl
@[simp] theorem takeItems_trace (c : Config) (s : State) : (takeItems c s).trace = s.trace := rfl

end Sys2Proof.Machine
end

