-- ==== Sys2Proof/Laws/Frames.lean ====
section
/-! SUPPORT. The frame of every meaning, once: put back the fields it may write and the old state is
left. A field it does not write is then `congrArg` of that field. -/

namespace Sys2Proof.Machine

theorem csrw_frame (csr : BitVec 8) (value : BitVec 16) (s : State) :
    { csrw csr value s with
      ctrl := s.ctrl, sqth := s.sqth, esno := s.esno, cbctx := s.cbctx, err := s.err
      trace := s.trace } = s := by
  unfold csrw csrWritten
  split
  · rename_i h
    split at h <;> cases h <;> rfl
  · rfl

theorem csrr_frame (csr : BitVec 8) (s : State) :
    { csrr csr s with err := s.err, trace := s.trace } = s := by
  unfold csrr
  split <;> rfl

theorem rdb_frame (c : Config) (index : BitVec 16) (s : State) :
    { rdb c index s with err := s.err, trace := s.trace } = s := by
  unfold rdb
  split <;> rfl

theorem rxf_frame (phyGate phyPost : BitVec 2) (s : State) :
    { rxf phyGate phyPost s with err := s.err, lat := s.lat, seq := s.seq, trace := s.trace } = s := by
  unfold rxf
  split <;> rfl

theorem gate_frame (c : Config) (s : State) :
    { gate c s with
      lat := s.lat, env := s.env, uwerr := s.uwerr, decoded := s.decoded
      ilvSynced := s.ilvSynced, fci := s.fci, pcc := s.pcc, iter := s.iter, seq := s.seq } = s := by
  unfold gate
  dsimp only
  split
  · rfl
  · split
    · rfl
    · split <;> rfl

theorem shap_frame (c : Config) (s : State) :
    { shap c s with winSym := s.winSym, winAmp := s.winAmp, seq := s.seq } = s := rfl

theorem isyn_frame (c : Config) (s : State) :
    { isyn c s with
      fci := s.fci, ilvSynced := s.ilvSynced, pcc := s.pcc, iter := s.iter, seq := s.seq
      trace := s.trace } = s := by
  unfold isyn
  dsimp only
  split <;> rfl

theorem wchk_frame (c : Config) (s : State) :
    { wchk c s with fci := s.fci, decoded := s.decoded, subf := s.subf, seq := s.seq } = s := by
  unfold wchk
  split <;> rfl

theorem adv_frame (s : State) :
    { adv s with
      phy := s.phy, nin := s.nin, ilvSynced := s.ilvSynced, fci := s.fci, pcc := s.pcc
      iter := s.iter, seq := s.seq } = s := by
  unfold adv
  dsimp only
  split <;> rfl

theorem useDecoded_frame (c : Config) (j : Nat) (bits : List Bit) (s : State) :
    { useDecoded c j bits s with
      outbuf := s.outbuf, terrsc := s.terrsc, tbitsc := s.tbitsc } = s := by
  unfold useDecoded
  split <;> rfl

theorem dsub_frame (c : Config) (s : State) :
    { dsub c s with
      pcc := s.pcc, iter := s.iter, outbuf := s.outbuf, terrsc := s.terrsc, tbitsc := s.tbitsc
      trace := s.trace, subf := s.subf, seq := s.seq } = s := by
  unfold dsub dsubAdvance useDecoded
  split
  · split <;> split <;> rfl
  · rfl

theorem tdec_frame (c : Config) (s : State) :
    { tdec c s with
      rxIn := s.rxIn, rxCode := s.rxCode, trace := s.trace, slot := s.slot, seq := s.seq } = s := by
  unfold tdec
  dsimp only
  split
  · split <;> rfl
  · rfl

theorem uwer_frame (c : Config) (s : State) :
    { uwer c s with uwerr := s.uwerr, terrs := s.terrs, tbits := s.tbits, seq := s.seq } = s := rfl

theorem verd_frame (c : Config) (s : State) :
    { verd c s with trace := s.trace, seq := s.seq, lat := s.lat } = s := rfl

/-- Loading a pattern writes the encoder registers alone. -/
theorem loadPattern_form (bits : List Bit) (s : State) :
    ∃ b i n, loadPattern bits s = { s with txBits := b, txIdx := i, txN := n } := by
  unfold loadPattern
  split
  · exact ⟨s.txBits, s.txIdx, s.txN, rfl⟩
  · exact ⟨_, _, _, rfl⟩

/-- What the fetch of TENC can do: nothing, wait, or take one answer (R92, R93). -/
theorem fetchChar_cases (c : Config) (s : State) :
    (¬(s.txN = 0 ∧ s.srcEn = true) ∧ fetchChar c s = some s)
      ∨ (s.txN = 0 ∧ s.srcEn = true ∧ s.env.txc = [] ∧ fetchChar c s = none)
      ∨ (∃ answer rest, s.txN = 0 ∧ s.srcEn = true ∧ s.env.txc = answer :: rest
          ∧ fetchChar c s = some (loadPattern (answer.elim [] (pat c))
              ({ s with env := { s.env with txc := rest } }.send [.sourceCall s.cbctx answer]))) := by
  unfold fetchChar
  split
  · rename_i h
    split
    · rename_i he
      exact .inr (.inl ⟨h.1, h.2, he, rfl⟩)
    · rename_i answer rest he
      refine .inr (.inr ⟨answer, rest, h.1, h.2, he, ?_⟩)
      cases answer <;> rfl
  · rename_i h
    exact .inl ⟨h, rfl⟩

/-- Emitting a bit moves the cursor and the count and sends one text bit. -/
theorem emitBit_form (s : State) :
    ∃ i n b, emitBit s = { s with txIdx := i, txN := n, trace := s.trace ++ [.textBit b] } := by
  unfold emitBit
  split
  · exact ⟨s.txIdx, s.txN, false, rfl⟩
  · exact ⟨_, _, _, rfl⟩

/-- The end of a slot of TENC writes SLOT and SEQ and may respond (R93). -/
theorem tenc_form (c : Config) (s : State) :
    ∃ b i n tr sl sq txc, tenc c s =
      { s with
        txBits := b, txIdx := i, txN := n, trace := tr, slot := sl, seq := sq
        env := { s.env with txc := txc } } := by
  unfold tenc
  split
  · rcases fetchChar_cases c s with ⟨-, h⟩ | ⟨-, -, -, h⟩ | ⟨a, rest, -, -, -, h⟩ <;> rw [h] <;>
      dsimp only
    · obtain ⟨i, n, b, he⟩ := emitBit_form s
      rw [he]
      split <;> exact ⟨_, _, _, _, _, _, s.env.txc, rfl⟩
    · exact ⟨_, _, _, _, _, _, s.env.txc, rfl⟩
    · obtain ⟨b', i', n', hl⟩ := loadPattern_form (a.elim [] (pat c))
        ({ s with env := { s.env with txc := rest } }.send [.sourceCall s.cbctx a])
      rw [hl]
      generalize hs : ({ s with env := { s.env with txc := rest } }.send
        [.sourceCall s.cbctx a]) = s1
      obtain ⟨i, n, b, he⟩ := emitBit_form { s1 with txBits := b', txIdx := i', txN := n' }
      rw [he, ← hs]
      split <;> exact ⟨_, _, _, _, _, _, rest, rfl⟩
  · exact ⟨_, _, _, _, _, _, s.env.txc, rfl⟩

end Sys2Proof.Machine
end

