-- ==== Sys2Proof/Laws/Memory.lean ====
section
/-! SUPPORT. The storage spaces: read after write, and that every operation on them keeps the
canonical form `Memory.wf` (spec/10_state.md R15, spec/20_memory.md R40 to R42). -/

namespace Sys2Proof.Machine

@[simp] theorem memWrite_length (m : List Bit) (i : Nat) (x : Bit) :
    (memWrite m i x).length = m.length := by
  simp [memWrite]

theorem memWrite_same (m : List Bit) (i : Nat) (x : Bit) (h : i < m.length) :
    (memWrite m i x)[i]? = some x := by
  simp [memWrite, h]

theorem memWrite_other (m : List Bit) (i k : Nat) (x : Bit) (h : i ≠ k) :
    (memWrite m i x)[k]? = m[k]? := by
  simp [memWrite, h]

@[simp] theorem memWriteBlock_length (m : List Bit) (i : Nat) (xs : List Bit) :
    (memWriteBlock m i xs).length = m.length := by
  induction xs generalizing m i with
  | nil => rfl
  | cons x xs ih => simp [memWriteBlock, ih]

/-- Elements outside the block keep their value. -/
theorem memWriteBlock_outside (m : List Bit) (i k : Nat) (xs : List Bit)
    (h : k < i ∨ i + xs.length ≤ k) : (memWriteBlock m i xs)[k]? = m[k]? := by
  induction xs generalizing m i with
  | nil => rfl
  | cons x xs ih =>
    simp only [List.length_cons] at h
    rw [memWriteBlock, ih _ _ (by omega), memWrite_other _ _ _ _ (by omega)]

/-- An element inside the block holds the written value. -/
theorem memWriteBlock_inside (m : List Bit) (i k : Nat) (xs : List Bit)
    (hm : i + xs.length ≤ m.length) (hk : k < xs.length) :
    (memWriteBlock m i xs)[i + k]? = xs[k]? := by
  induction xs generalizing m i k with
  | nil => simp at hk
  | cons x xs ih =>
    simp only [List.length_cons] at hm hk
    cases k with
    | zero =>
      rw [memWriteBlock, memWriteBlock_outside _ _ _ _ (by omega)]
      simpa using memWrite_same m i x (by omega)
    | succ k =>
      have := ih (memWrite m i x) (i + 1) k (by simp; omega) (by omega)
      rw [memWriteBlock, show i + (k + 1) = i + 1 + k by omega, this]
      rfl

theorem shiftAppend_length (c : Config) (hD : 1 ≤ c.D) (window frame : List Code)
    (hw : window.length = c.N) (hf : frame.length = c.S) :
    (shiftAppend c window frame).length = c.N := by
  have : c.S ≤ c.N := Nat.le_mul_of_pos_left _ hD
  simp [shiftAppend, hw, hf]
  omega

theorem shiftAppend_width (c : Config) (w : Nat) (window frame : List Code)
    (hw : ∀ x ∈ window, x < 2 ^ w) (hf : ∀ x ∈ frame, x < 2 ^ w) :
    ∀ x ∈ shiftAppend c window frame, x < 2 ^ w := by
  intro x hx
  rcases List.mem_append.1 hx with h | h
  · exact hw x (List.mem_of_mem_drop h)
  · exact hf x h

theorem inSym_width (c : Config) (s : State) : ∀ x ∈ inSym c s, x < 2 ^ c.SYM_W := by
  intro x hx
  obtain ⟨y, -, rfl⟩ := List.mem_map.1 hx
  exact Nat.mod_lt _ (Nat.two_pow_pos _)

theorem inAmp_width (c : Config) (s : State) : ∀ x ∈ inAmp c s, x < 2 ^ c.AMP_W := by
  intro x hx
  obtain ⟨y, -, rfl⟩ := List.mem_map.1 hx
  exact Nat.mod_lt _ (Nat.two_pow_pos _)

theorem itemsFrom_length (s : State) (k n : Nat) (h : k + n ≤ s.lat.items.length) :
    (itemsFrom s k n).length = n := by
  simp [itemsFrom]
  omega

theorem itemsFrom_getElem? (s : State) (k n i : Nat) (h : i < n) :
    (itemsFrom s k n)[i]? = s.lat.items[k + i]? := by
  simp [itemsFrom, h]

theorem inSym_length (c : Config) (s : State)
    (h : s.lat.items.length = 3 + c.U + 2 * c.S + c.T) : (inSym c s).length = c.S := by
  rw [inSym, List.length_map, itemsFrom_length _ _ _ (by omega)]

theorem inAmp_length (c : Config) (s : State)
    (h : s.lat.items.length = 3 + c.U + 2 * c.S + c.T) : (inAmp c s).length = c.S := by
  rw [inAmp, List.length_map, itemsFrom_length _ _ _ (by omega)]

/-! ### The canonical form is kept -/

/-- It looks at three fields only. -/
theorem memory_congr {c : Config} {s t : State} (h : Memory.wf c s) (h1 : t.winSym = s.winSym)
    (h2 : t.winAmp = s.winAmp) (h3 : t.outbuf = s.outbuf) : Memory.wf c t := by
  simpa only [Memory.wf, h1, h2, h3] using h

theorem memory_reset (c : Config) (e : Env) (tr : List Event) :
    Memory.wf c { State.resetOn c with env := e, trace := tr } := by
  have pos : ∀ w n x, x ∈ List.replicate n 0 → x < 2 ^ w := fun w n x hx => by
    rw [List.eq_of_mem_replicate hx]
    exact Nat.two_pow_pos w
  exact ⟨List.length_replicate, List.length_replicate, List.length_replicate, pos _ _, pos _ _⟩

theorem memory_shap {c : Config} (hc : c.WF) {s : State} (h : Memory.wf c s)
    (hi : s.lat.items.length = 3 + c.U + 2 * c.S + c.T) : Memory.wf c (shap c s) := by
  obtain ⟨h1, h2, h3, h4, h5⟩ := h
  exact ⟨shiftAppend_length c hc.D_pos _ _ h1 (inSym_length c s hi),
    shiftAppend_length c hc.D_pos _ _ h2 (inAmp_length c s hi), h3,
    shiftAppend_width c _ _ _ h4 (inSym_width c s), shiftAppend_width c _ _ _ h5 (inAmp_width c s)⟩

theorem memory_useDecoded {c : Config} {s : State} (h : Memory.wf c s) (j : Nat)
    (bits : List Bit) : Memory.wf c (useDecoded c j bits s) := by
  unfold useDecoded
  split
  · exact h
  · obtain ⟨h1, h2, h3, h4, h5⟩ := h
    exact ⟨h1, h2, (memWriteBlock_length _ _ _).trans h3, h4, h5⟩

theorem memory_dsub {c : Config} {s : State} (h : Memory.wf c s) : Memory.wf c (dsub c s) := by
  unfold dsub dsubAdvance
  split
  · have := memory_useDecoded (c := c) (s := s.decodeSub c s.subf) h s.subf
      (payload c (fecDecode c s s.subf))
    split <;> exact this
  · exact h

end Sys2Proof.Machine
end

