-- ==== Sys2Proof/Laws/Ops.lean ====
section
/-! SUPPORT. What each shared operation can do, once: later proofs cite these and do not unfold the
operation. -/

namespace Sys2Proof.Machine

/-- Error entry (R141). -/
theorem raiseError_eq (e : HostError) (s : State) :
    raiseError e s =
      { s with
        err := if s.err = 0 then errorCode e else s.err
        trace := s.trace ++ [.response true ((errorCode e).zeroExtend 32)] } := rfl

theorem errorCode_range (e : HostError) : 1 ≤ (errorCode e).toNat ∧ (errorCode e).toNat ≤ 3 := by
  cases e <;> decide

/-- What a CSR write can do (R82). -/
theorem csrWritten_cases (s : State) (csr : BitVec 8) (value : BitVec 16) :
    (csr = 0 ∧ csrWritten s csr value = some { s with ctrl := value.extractLsb' 0 4 })
      ∨ (csr = 1 ∧ csrWritten s csr value = some { s with sqth := value })
      ∨ (csr = 2 ∧ csrWritten s csr value = some { s with esno := value })
      ∨ (csr = 3 ∧ csrWritten s csr value = some { s with cbctx := value })
      ∨ (3 < csr.toNat ∧ csrWritten s csr value = none) := by
  have small : ∀ r : BitVec 8, r = 0 ∨ r = 1 ∨ r = 2 ∨ r = 3 ∨ 3 < r.toNat := by decide
  rcases small csr with rfl | rfl | rfl | rfl | h
  · exact .inl ⟨rfl, rfl⟩
  · exact .inr (.inl ⟨rfl, rfl⟩)
  · exact .inr (.inr (.inl ⟨rfl, rfl⟩))
  · exact .inr (.inr (.inr (.inl ⟨rfl, rfl⟩)))
  · refine .inr (.inr (.inr (.inr ⟨h, ?_⟩)))
    unfold csrWritten
    split <;> first | omega | rfl

/-- The readable registers are 0x00 to 0x0D (R83). -/
theorem csrView_isSome (s : State) (csr : BitVec 8) :
    (csrView s csr).isSome = decide (csr.toNat ≤ 0x0D) := by
  unfold csrView
  split <;> simp_all
  omega

theorem satadd32_toNat (a : BitVec 32) (b : Nat) :
    (satadd32 a b).toNat = min (a.toNat + b) (2 ^ 32 - 1) := by
  rw [satadd32, BitVec.toNat_ofNat, Nat.mod_eq_of_lt (by omega)]

theorem neededItems_ge (c : Config) (phyGate : BitVec 2) : 2 ≤ neededItems c phyGate := by
  unfold neededItems
  split <;> omega

/-- The deinterleaved view looks at the window alone, so a decode looks at the window, ESNO and the
latched mean amplitude. -/
theorem fecDecode_congr (c : Config) {s t : State} (j : Nat) (h1 : t.winSym = s.winSym)
    (h2 : t.winAmp = s.winAmp) (h3 : t.esno = s.esno) (h4 : t.lat = s.lat) :
    fecDecode c t j = fecDecode c s j ∧ fecEvents c t j = fecEvents c s j := by
  simp only [fecDecode, fecEvents, fullLlr, subSym, subAmp, deSym, deAmp, inMeanAmp, item, h1, h2,
    h3, h4, and_self]

/-- The counts of a decode fit their registers (R8, R24). -/
theorem decodeSub_counts {c : Config} (hc : c.WF) (s : State) (j : Nat) :
    (s.decodeSub c j).pcc.toNat = (fecDecode c s j).pcc
      ∧ (s.decodeSub c j).iter.toNat = (fecDecode c s j).iter
      ∧ (fecDecode c s j).pcc ≤ c.NPCHK ∧ (fecDecode c s j).iter ≤ c.ITER_MAX := by
  have hp : (fecDecode c s j).pcc ≤ c.NPCHK := hc.dec_pcc _
  have hi : (fecDecode c s j).iter ≤ c.ITER_MAX := hc.dec_iter _
  have := hc.parity_field
  have := hc.iter_field
  refine ⟨?_, ?_, hp, hi⟩ <;> rw [State.decodeSub] <;>
    simp only [State.send, BitVec.toNat_ofNat] <;> exact Nat.mod_eq_of_lt (by omega)

/-- `trialAccepted` as the spec writes it (R112). -/
theorem trialAccepted_iff (c : Config) (r : DecResult) :
    trialAccepted c r = true ↔ r.pcc = c.NPCHK ∧ r.iter ≤ c.TRIAL_ITER_MAX := by
  simp [trialAccepted]

/-- The decoder step keeps the invariant of R19. -/
theorem decStep_inside (c : Config) (rxIn : Bool) (rxCode : List Bit) (b : Bit)
    (h : rxIn = true → rxCode.head? = some true) :
    ((decStep c rxIn rxCode b).1 = false → (decStep c rxIn rxCode b).2.1 = [])
      ∧ ((decStep c rxIn rxCode b).1 = true → (decStep c rxIn rxCode b).2.1.head? = some true
          ∧ (decStep c rxIn rxCode b).2.1.length < c.TXT_CODE_MAX + 2) := by
  unfold decStep
  cases rxIn with
  | false => cases b <;> simp
  | true =>
    have hh := h rfl
    simp only [if_true]
    split
    · simp
    · split
      · simp
      · refine ⟨by simp, fun _ => ⟨?_, by simp_all⟩⟩
        cases rxCode <;> simp_all

/-- An entry the lookup finds is in the table. -/
theorem lookup_mem {l : List (Char8 × List Bit)} {ch : Char8} {w : List Bit}
    (h : l.lookup ch = some w) : (ch, w) ∈ l := by
  induction l with
  | nil => simp at h
  | cons e l ih =>
    obtain ⟨k, v⟩ := e
    rw [List.lookup_cons] at h
    split at h
    · rename_i hk
      cases h
      rw [eq_of_beq hk]
      exact List.mem_cons_self
    · exact List.mem_cons_of_mem _ (ih h)

/-- The five outcomes of the verdict (R134). -/
theorem verdictOf_cases (c : Config) (s : State) :
    verdictOf c s = (.muted, 0) ∨ verdictOf c s = (.pass, inNinCur s)
      ∨ verdictOf c s = (.good, BitVec.ofNat 16 c.N_SPEECH)
      ∨ verdictOf c s = (.marginal, BitVec.ofNat 16 c.N_SPEECH) := by
  unfold verdictOf
  repeat' split
  all_goals simp

/-- The fields of the `RXF` response word (R66). -/
theorem rxfWord_toNat (nout : BitVec 16) (v : Verdict) (decoded : Bool) :
    (rxfWord nout v decoded).toNat
      = nout.toNat + v.code.toNat * 2 ^ 16 + (if decoded then 2 ^ 19 else 0) := by
  have app : ∀ a : BitVec 16, (a ++ nout).toNat = a.toNat * 2 ^ 16 + nout.toNat := fun a => by
    rw [BitVec.toNat_append, Nat.shiftLeft_eq, Nat.mul_comm,
      Nat.two_pow_add_eq_or_of_lt nout.isLt]
  cases v <;> cases decoded <;> simp [rxfWord, Verdict.code, app] <;> omega

end Sys2Proof.Machine
end

