-- ==== Sys2Proof/Laws/PerInstr.lean ====
section
/-! SUPPORT. A statement for all instructions, one lemma for each constructor: every encoding is a
word of its own row of spec/opcode_table.json. -/

namespace Sys2Proof.Laws.EncodesOwnRow

open Sys2Proof

/-- Match and mask of the row of a host command (R61). -/
def commandRow : Instr → Word × Word
  | .nop => (0x00000000, 0xFFFFFFFF)
  | .srst => (0x01000000, 0xFFFFFFFF)
  | .csrw _ _ => (0x02000000, 0xFF000000)
  | .csrr _ => (0x03000000, 0xFF00FFFF)
  | .rdb _ => (0x04000000, 0xFFFF0000)
  | .rxf _ _ => (0x10000000, 0xFFF0FFFF)
  | .txt => (0x11000000, 0xFFFFFFFF)
  | .idle | .gate | .shap | .isyn | .wchk | .dsub | .tdec | .uwer | .adv | .verd | .tenc => (0, 0)

/-- The row of a phase (R70). -/
def phaseRow : Instr → BitVec 4
  | .nop | .srst | .csrw _ _ | .csrr _ | .rdb _ | .rxf _ _ | .txt => 0
  | .idle => 0x0
  | .gate => 0x1
  | .shap => 0x2
  | .isyn => 0x3
  | .wchk => 0x4
  | .dsub => 0x5
  | .tdec => 0x6
  | .uwer => 0x7
  | .adv => 0x8
  | .verd => 0x9
  | .tenc => 0xA

/-- A command is a word of its row, a phase the code of its row. -/
def Statement (i : Instr) : Prop :=
  match encode i with
  | .command w => i.isCommand = true ∧ w &&& (commandRow i).2 = (commandRow i).1
  | .phase p => i.isCommand = false ∧ p = phaseRow i

/-- The three fields of a word under a mask made of three masks (R60). -/
theorem formatC_and (op f mop mf : BitVec 8) (imm mimm : BitVec 16) :
    formatC op f imm &&& formatC mop mf mimm
      = formatC (op &&& mop) (f &&& mf) (imm &&& mimm) :=
  (BitVec.and_append (x₁ := op ++ f) (x₂ := mop ++ mf)).trans
    (congrArg (· ++ (imm &&& mimm)) BitVec.and_append)

theorem nop : Statement .nop := ⟨rfl, by decide⟩
theorem srst : Statement .srst := ⟨rfl, by decide⟩
theorem csrw (csr : BitVec 8) (value : BitVec 16) : Statement (.csrw csr value) :=
  ⟨rfl, (formatC_and 0x02 csr 0xFF 0 value 0).trans (by simp [commandRow, formatC])⟩
theorem csrr (csr : BitVec 8) : Statement (.csrr csr) :=
  ⟨rfl, (formatC_and 0x03 csr 0xFF 0 0 0xFFFF).trans (by simp [commandRow, formatC])⟩
theorem rdb (index : BitVec 16) : Statement (.rdb index) :=
  ⟨rfl, (formatC_and 0x04 0 0xFF 0xFF index 0).trans (by simp [commandRow, formatC])⟩
theorem rxf (phyGate phyPost : BitVec 2) : Statement (.rxf phyGate phyPost) :=
  ⟨rfl, by revert phyGate phyPost; decide⟩
theorem txt : Statement .txt := ⟨rfl, by decide⟩
theorem idle : Statement .idle := ⟨rfl, by decide⟩
theorem gate : Statement .gate := ⟨rfl, by decide⟩
theorem shap : Statement .shap := ⟨rfl, by decide⟩
theorem isyn : Statement .isyn := ⟨rfl, by decide⟩
theorem wchk : Statement .wchk := ⟨rfl, by decide⟩
theorem dsub : Statement .dsub := ⟨rfl, by decide⟩
theorem tdec : Statement .tdec := ⟨rfl, by decide⟩
theorem uwer : Statement .uwer := ⟨rfl, by decide⟩
theorem adv : Statement .adv := ⟨rfl, by decide⟩
theorem verd : Statement .verd := ⟨rfl, by decide⟩
theorem tenc : Statement .tenc := ⟨rfl, by decide⟩

end Sys2Proof.Laws.EncodesOwnRow
end

