-- ==== Sys2Proof/Laws/Step.lean ====
section
/-! SUPPORT. What one step can do, said once: a reset, a wait, or one micro-operation; and what IDLE
can do with an offered command. Later proofs cite these and do not unfold `step`. -/

namespace Sys2Proof.Machine

theorem next_inj {s t : State} (h : (Host.Outcome.next s : Host.Outcome State Fault Refusal) = .next t) :
    s = t := by
  cases h
  rfl

/-- The command IDLE took, and the state it leaves (R76, R80 to R86). -/
inductive CommandDone (c : Config) (w : Word) (s : State) : State → Prop where
  | illegal (h : decodeCommand w = .error .illegalCommand) :
      CommandDone c w s (raiseError .illegalCommand s)
  | nop (h : decodeCommand w = .ok .nop) : CommandDone c w s (respond 0 s)
  | srst (hw : w = 0x01000000) : CommandDone c w s (respond 0 (s.sessionReset c))
  | csrw {csr value} (h : decodeCommand w = .ok (.csrw csr value)) :
      CommandDone c w s (Machine.csrw csr value s)
  | csrr {csr} (h : decodeCommand w = .ok (.csrr csr)) : CommandDone c w s (Machine.csrr csr s)
  | rdb {index} (h : decodeCommand w = .ok (.rdb index)) : CommandDone c w s (Machine.rdb c index s)
  | rxf {phyGate phyPost} (h : decodeCommand w = .ok (.rxf phyGate phyPost)) :
      CommandDone c w s (Machine.rxf phyGate phyPost s)
  | txt (h : decodeCommand w = .ok .txt) :
      CommandDone c w s ({ s with slot := 0 }.goto Phase.tenc)

theorem acceptCommand_done {c : Config} {w : Word} {s t : State}
    (h : acceptCommand c w s = .next t) : CommandDone c w s t := by
  unfold acceptCommand at h
  split at h
  · rename_i i hi
    have hc := decodeCommand_cases hi
    rcases hc with ⟨rfl, rfl⟩ | ⟨rfl, rfl⟩ | ⟨_, _, rfl⟩ | ⟨_, rfl⟩ | ⟨_, rfl⟩ | ⟨_, _, rfl⟩ |
      ⟨rfl, rfl⟩ <;> cases h
    · exact .nop hi
    · exact .srst rfl
    · exact .csrw hi
    · exact .csrr hi
    · exact .rdb hi
    · exact .rxf hi
    · exact .txt hi
  · rename_i e he
    cases h
    exact .illegal (by rw [he, decodeCommand_error he])

/-- One micro-operation, by phase (R70). -/
inductive PhaseDone (c : Config) (s : State) : State → Prop where
  | waits (hq : s.seq = Phase.idle) (hc : s.env.cmd = []) : PhaseDone c s s
  | command {w rest t} (hq : s.seq = Phase.idle) (hc : s.env.cmd = w :: rest)
      (h : CommandDone c w { s with env := { s.env with cmd := rest } } t) : PhaseDone c s t
  | gate (hq : s.seq = Phase.gate) : PhaseDone c s (Machine.gate c s)
  | shap (hq : s.seq = Phase.shap) : PhaseDone c s (Machine.shap c s)
  | isyn (hq : s.seq = Phase.isyn) : PhaseDone c s (Machine.isyn c s)
  | wchk (hq : s.seq = Phase.wchk) : PhaseDone c s (Machine.wchk c s)
  | dsub (hq : s.seq = Phase.dsub) : PhaseDone c s (Machine.dsub c s)
  | tdec (hq : s.seq = Phase.tdec) : PhaseDone c s (Machine.tdec c s)
  | uwer (hq : s.seq = Phase.uwer) : PhaseDone c s (Machine.uwer c s)
  | adv (hq : s.seq = Phase.adv) : PhaseDone c s (Machine.adv s)
  | verd (hq : s.seq = Phase.verd) : PhaseDone c s (Machine.verd c s)
  | tenc (hq : s.seq = Phase.tenc) : PhaseDone c s (Machine.tenc c s)

theorem execIdle_done {s t : State} (hq : s.seq = Phase.idle) (h : execIdle s = .next t) :
    PhaseDone Config.cfg s t := by
  unfold execIdle at h
  split at h
  · cases h
    exact .waits hq ‹_›
  · exact .command hq ‹_› (acceptCommand_done h)

/-- A step is a reset, a wait for a port, or one micro-operation (R160, R168, R70). -/
theorem step_cases {s t : State} (h : step s = .next t) :
    (s.env.rst = true ∧ t = s.sessionReset Config.cfg)
      ∨ (s.env.rst = false ∧ t = s ∧ stalled Config.cfg s = true)
      ∨ (s.env.rst = false ∧ stalled Config.cfg s = false ∧ PhaseDone Config.cfg s t) := by
  unfold step at h
  split at h
  · exact .inl ⟨‹_›, (next_inj h).symm⟩
  · have hr : s.env.rst = false := by simpa using ‹¬s.env.rst = true›
    split at h
    · exact .inr (.inl ⟨hr, (next_inj h).symm, ‹_›⟩)
    · refine .inr (.inr ⟨hr, by simpa using ‹¬stalled Config.cfg s = true›, ?_⟩)
      split at h
      · rename_i i hi
        rcases decodePhase_cases hi with ⟨hq, rfl⟩ | ⟨hq, rfl⟩ | ⟨hq, rfl⟩ | ⟨hq, rfl⟩ | ⟨hq, rfl⟩ |
          ⟨hq, rfl⟩ | ⟨hq, rfl⟩ | ⟨hq, rfl⟩ | ⟨hq, rfl⟩ | ⟨hq, rfl⟩ | ⟨hq, rfl⟩
        · exact execIdle_done hq h
        · cases h; exact .gate hq
        · cases h; exact .shap hq
        · cases h; exact .isyn hq
        · cases h; exact .wchk hq
        · cases h; exact .dsub hq
        · cases h; exact .tdec hq
        · cases h; exact .uwer hq
        · cases h; exact .adv hq
        · cases h; exact .verd hq
        · cases h; exact .tenc hq
      · cases h

end Sys2Proof.Machine
end

