-- ==== Sys2Proof/Tests/Slice0.lean ====
section
/-! SUPPORT. Tests with results taken from spec/95_test_vectors.md (named in each docstring) on the toy
configuration T1, words written out from spec/30_encoding.md, and for every obligation with
hypotheses a state that meets them. -/

namespace Sys2Proof.Tests

open Sys2Proof.Machine Sys2Proof.Claims

/-- T1 right after reset. -/
def toy : State := State.resetOn Config.t1

/-- A field of the next state. -/
def after {α : Type} (o : Host.Outcome State Fault Refusal) (f : State → α) : Option α :=
  match o with
  | .next t => some (f t)
  | _ => none

/-- The step goes on. -/
def goesOn (o : Host.Outcome State Fault Refusal) : Bool :=
  match o with
  | .next _ => true
  | _ => false

/-! ### Well-formedness: one ill-formed command for each check -/

theorem test_wf_csrw_status_refused : (Instr.csrw 0x04 0).wellFormed Config.t1 = false := by decide
theorem test_wf_csrr_0e_refused : (Instr.csrr 0x0E).wellFormed Config.t1 = false := by decide
theorem test_wf_rdb_1_refused : (Instr.rdb 1).wellFormed Config.t1 = false := by decide
theorem test_wf_rxf_gate_3_refused : (Instr.rxf 3 0).wellFormed Config.t1 = false := by decide
theorem test_wf_rxf_post_3_refused : (Instr.rxf 0 3).wellFormed Config.t1 = false := by decide
theorem test_wf_boundaries_accepted :
    (Instr.csrw 0x03 0).wellFormed Config.t1 = true ∧ (Instr.csrr 0x0D).wellFormed Config.t1 = true
      ∧ (Instr.rdb 0).wellFormed Config.t1 = true ∧ (Instr.rxf 2 2).wellFormed Config.t1 = true := by
  decide

/-! ### Decoding: a word of every row, written out from R61, R63, R70, R73 -/

/-- R61. -/
theorem test_decode_nop : decodeCommand 0x00000000 = .ok .nop := by decide
theorem test_decode_srst : decodeCommand 0x01000000 = .ok .srst := by decide
/-- V-H5: CSRW SQTH, -5. -/
theorem test_decode_csrw : decodeCommand 0x0201FFFB = .ok (.csrw 0x01 0xFFFB) := by decide
/-- P-B: CSRR TXTSTAT; V-H16: a non-zero `imm` matches nothing. -/
theorem test_decode_csrr : decodeCommand 0x030D0000 = .ok (.csrr 0x0D)
    ∧ decodeCommand 0x03050001 = .error .illegalCommand := by decide
/-- V-H10. -/
theorem test_decode_rdb : decodeCommand 0x04000001 = .ok (.rdb 0x0001)
    ∧ decodeCommand 0x04010000 = .error .illegalCommand := by decide
/-- The nine legal words of Part 2: gate is bits 17:16, post bits 19:18. -/
theorem test_decode_rxf : decodeCommand 0x10040000 = .ok (.rxf Phy.searching Phy.trial)
    ∧ decodeCommand 0x10020000 = .ok (.rxf Phy.synced Phy.searching)
    ∧ decodeCommand 0x10100000 = .error .illegalCommand := by decide
/-- V-H11. -/
theorem test_decode_txt : decodeCommand 0x11000000 = .ok .txt
    ∧ decodeCommand 0x11000001 = .error .illegalCommand := by decide
/-- V-H12, V-H13. -/
theorem test_decode_illegal : decodeCommand 0xFF000000 = .error .illegalCommand
    ∧ decodeCommand 0x05000000 = .error .illegalCommand := by decide
/-- R70, all codes. -/
theorem test_decode_phases :
    decodePhase 0x0 = .ok .idle ∧ decodePhase 0x1 = .ok .gate ∧ decodePhase 0x2 = .ok .shap
      ∧ decodePhase 0x3 = .ok .isyn ∧ decodePhase 0x4 = .ok .wchk ∧ decodePhase 0x5 = .ok .dsub
      ∧ decodePhase 0x6 = .ok .tdec ∧ decodePhase 0x7 = .ok .uwer ∧ decodePhase 0x8 = .ok .adv
      ∧ decodePhase 0x9 = .ok .verd ∧ decodePhase 0xA = .ok .tenc
      ∧ decodePhase 0xB = .error .reservedPhase ∧ decodePhase 0xF = .error .reservedPhase := by
  decide
/-- R60, R73: the encoder writes the words of the assembler table. -/
theorem test_encode_words : encode (.csrw 0x03 0x1234) = .command 0x02031234
    ∧ encode (.csrr 0x05) = .command 0x03050000 ∧ encode (.rdb 1) = .command 0x04000001
    ∧ encode (.rxf Phy.trial Phy.synced) = .command 0x10090000 := by decide

theorem test_decodeTableWord : decodeTableWord 32 0x0201000A = some (.csrw 0x01 0x000A)
    ∧ decodeTableWord 8 0x5 = some .dsub ∧ decodeTableWord 8 0xB = none
    ∧ decodeTableWord 32 0x12000000 = none := by decide

/-- The first step after reset runs the placed instruction, whatever the configuration. -/
theorem test_withFetchWord_runs : goesOn (step (State.reset.withFetchWord 32 0x10090000)) = true
    ∧ goesOn (step (State.reset.withFetchWord 32 0x02000006)) = true
    ∧ goesOn (step (State.reset.withFetchWord 8 0x9)) = true := by decide
theorem test_withFetchWord_rxf :
    after (step (State.reset.withFetchWord 32 0x10090000)) (fun t => (t.seq, t.lat.gate, t.lat.post))
      = some (Phase.gate, Phy.trial, Phy.synced) := by decide
theorem test_reserved_phase_faults : step { State.reset with seq := 0xB } = .fault .reservedPhase :=
  rfl

/-! ### Host commands -/

/-- V-H1. -/
theorem test_nop : after (execNop toy) (·.trace) = some [.response false 0] := by decide
/-- R81: the example, and V-H21. -/
theorem test_srst :
    after (execSrst { toy with tbits := 12, ilvSynced := true, err := 3, sqth := 5 } Config.t1)
      (fun t => (t.tbits, t.ilvSynced, t.err, t.sqth, t.trace))
      = some (0, false, 0, 0, [.response false 0]) := by decide
/-- V-H4: bits 15:4 ignored. -/
theorem test_csrw_ctrl : after (execCsrw 0x00 0xFFFF toy) (·.ctrl) = some 0xF := by decide
/-- V-H14. -/
theorem test_csrw_status : after (execCsrw 0x04 0 toy) (fun t => (t.err, t.trace))
    = some (2, [.response true 2]) := by decide
/-- P-A after the second RXF: STATUS is 0x0000000E. -/
theorem test_csrr_status :
    after (execCsrr 0x04 { toy with phy := 2, ilvSynced := true, decoded := true }) (·.trace)
      = some [.response false 0x0000000E] := by decide
/-- TXTSTAT with an idle encoder and `RX_CODE = 1,1`: 0x02010000. -/
theorem test_csrr_txtstat :
    after (execCsrr 0x0D { toy with rxIn := true, rxCode := [true, true] }) (·.trace)
      = some [.response false 0x02010000] := by decide
/-- R84: the example. -/
theorem test_rdb :
    after (execRdb 0 { toy with outbuf := [true, false, true, true, false, true, true, false] }
      Config.t1) (·.trace) = some [.response false 0x000000B6] := by decide
/-- V-H10 and V-H20: the second error does not overwrite the first. -/
theorem test_rdb_out_of_range :
    after (execRdb 1 { toy with err := 1 } Config.t1) (fun t => (t.err, t.trace))
      = some (1, [.response true 3]) := by decide
/-- V-H17. -/
theorem test_rxf_reserved : after (execRxf 3 0 toy) (fun t => (t.seq, t.err, t.trace))
    = some (0, 3, [.response true 3]) := by decide
/-- R71. -/
theorem test_txt : after (execTxt toy) (fun t => (t.seq, t.slot)) = some (0xA, 0) := by decide
/-- V-H11: no bit on `tbo`. -/
theorem test_idle_illegal :
    after (execIdle { toy with env := { toy.env with cmd := [0x11000001, 0] } } Config.t1)
      (fun t => (t.err, t.trace, t.env.cmd, t.seq))
      = some (1, [.response true 1], [0], 0) := by decide

/-! ### Receive side -/

/-- The `din` items of the first RXF of P-A. -/
def frameA : List Code := [0x02820280, 0, 7, 1, 0, 0, 2, 0, 2, 3, 7, 7, 7, 7, 0, 0]

/-- T1 in an RXF SYNCED, SYNCED with the frame of P-A absorbed. -/
def inRxf : State := { toy with lat := { gate := 2, post := 2, items := frameA } }

/-- P-A: GATE takes 16 items and goes to SHAP. -/
theorem test_gate :
    after (execGate { toy with
        lat := { gate := 2, post := 2, items := [] }, seq := 1, uwerr := 1, decoded := true
        env := { toy.env with din := frameA ++ [9] } } Config.t1)
      (fun t => (t.lat.items, t.env.din, t.seq, t.uwerr, t.decoded))
      = some (frameA, [9], 2, 0, false) := by decide
/-- R101: the example, V-I9. -/
theorem test_gate_searching :
    after (execGate { toy with
        seq := 1, ilvSynced := true, fci := 1, pcc := 4, iter := 1
        env := { toy.env with din := [0x02800280, 0] } } Config.t1)
      (fun t => (t.ilvSynced, t.fci, t.pcc, t.iter, t.seq)) = some (false, 0, 0, 0, 8) := by decide
/-- V-W1. -/
theorem test_shap :
    after (execShap { inRxf with
        winSym := [2, 0, 2, 3, 1, 3, 3, 2], winAmp := [7, 7, 7, 7, 7, 7, 7, 7]
        lat := { inRxf.lat with
          items := [0, 0, 7, 1, 0, 1, 0, 2, 0, 1, 5, 5, 5, 5, 0, 0] } } Config.t1)
      (fun t => (t.winSym, t.winAmp))
      = some ([1, 3, 3, 2, 0, 2, 0, 1], [7, 7, 7, 7, 5, 5, 5, 5]) := by decide
/-- V-W3. -/
theorem test_view :
    (List.range 8).map (deSym Config.t1 { toy with winSym := [2, 0, 2, 3, 1, 3, 3, 2] })
      = [2, 3, 3, 0, 1, 2, 2, 3] := by decide

/-- T1 with window A, amplitudes 7 (P-A). -/
def windowA : State :=
  { inRxf with winSym := [2, 0, 2, 3, 1, 3, 3, 2], winAmp := [7, 7, 7, 7, 7, 7, 7, 7] }

/-- V-I2: the trial is accepted. -/
theorem test_isyn_accepts :
    after (execIsyn { windowA with fci := 1 } Config.t1)
      (fun t => (t.ilvSynced, t.fci, t.pcc, t.iter)) = some (true, 2, 4, 1) := by decide
/-- V-I3, V-W4: a misaligned window is rejected. -/
theorem test_isyn_rejects :
    after (execIsyn { windowA with fci := 1, winSym := [1, 3, 3, 2, 0, 2, 0, 1] } Config.t1)
      (fun t => (t.ilvSynced, t.fci, t.pcc, t.iter)) = some (false, 2, 3, 15) := by decide
/-- R113: the example, and V-I1. -/
theorem test_wchk :
    after (execWchk { toy with ilvSynced := true, fci := 2 } Config.t1)
        (fun t => (t.fci, t.decoded, t.seq)) = some (0, true, 5)
      ∧ after (execWchk { toy with fci := 2 } Config.t1) (fun t => (t.fci, t.decoded, t.seq))
        = some (2, false, 6) := by decide
/-- V-P4: sub-frame 1 of window A to OUTBUF[4..7]; the decoder is given the padded array. -/
theorem test_dsub_stores :
    after (execDsub { windowA with subf := 1, seq := 5 } Config.t1)
      (fun t => (t.outbuf, t.pcc, t.iter, t.trace.getLast?))
      = some ([false, false, false, false, false, true, true, false], 4, 1,
          some (.decCall [7, 65529, 65529, 7, 65436, 65436, 65529, 7, 65529, 65529])) := by decide
/-- V-P5, V-P6: a corrupted sub-frame scored in test mode. -/
theorem test_dsub_scores :
    after (execDsub { windowA with
        subf := 1, seq := 5, ctrl := 1, winSym := [2, 0, 2, 3, 0, 3, 3, 2] } Config.t1)
      (fun t => (t.terrsc, t.tbitsc, t.pcc, t.iter, t.outbuf))
      = some (1, 4, 2, 15, List.replicate 8 false) := by decide
/-- R95: the example, second slot of the second frame. -/
theorem test_tdec_delivers :
    after (execTdec { inRxf with
        rxIn := true, rxCode := [true, true, false], slot := 1, ctrl := 4, cbctx := 0x1234 }
        Config.t1) (fun t => (t.rxIn, t.rxCode, t.trace, t.slot, t.seq))
      = some (false, [], [.sinkCall 0x65 0x1234], 0, 7) := by decide
/-- V-X13: overrun at length 12. -/
theorem test_tdec_overrun :
    decStep Config.t1 true (List.replicate 11 true) true = (false, [], none)
      ∧ decStep Config.t1 true (List.replicate 10 true) true
        = (true, List.replicate 11 true, none) := by decide
/-- V-S1. -/
theorem test_uwer : after (execUwer inRxf Config.t1) (fun t => (t.uwerr, t.terrs, t.tbits))
    = some (1, 1, 3) := by decide
/-- V-S4, V-S5: saturation. -/
theorem test_uwer_saturates :
    after (execUwer { inRxf with
        terrs := 0xFFFFFFFE, tbits := 0xFFFFFFFF
        lat := { inRxf.lat with items := [0, 0, 7, 0, 1, 0, 2, 0, 2, 3, 7, 7, 7, 7, 0, 0] } }
        Config.t1) (fun t => (t.terrs, t.tbits)) = some (0xFFFFFFFF, 0xFFFFFFFF) := by decide
/-- R114: the example. -/
theorem test_adv :
    after (execAdv { toy with
        ilvSynced := true, pcc := 4, phy := 2
        lat := { gate := 2, post := 0, items := [0x02800280, 0] } })
      (fun t => (t.phy, t.nin, t.ilvSynced, t.pcc, t.seq)) = some (0, 640, false, 0, 9) := by decide

/-- The verdict's word on T1 with `nin_cur = 640`. -/
def verdictWord (post : BitVec 2) (pcc : BitVec 16) (ctrl : BitVec 4) (snr : Code) (sqth : BitVec 16)
    (decoded : Bool) : Option (Option Event) :=
  after (execVerd { toy with
    pcc := pcc, ctrl := ctrl, sqth := sqth, decoded := decoded
    lat := { gate := 2, post := post, items := [640, snr] } } Config.t1) (·.trace.getLast?)

/-- V-V2, V-V3, V-V5, V-V9, V-V10. -/
theorem test_verd_rows :
    verdictWord 0 0 2 20 10 false = some (some (.response false 0x00000000))
      ∧ verdictWord 1 3 0 20 10 false = some (some (.response false 0x00070280))
      ∧ verdictWord 1 4 0 0 10 false = some (some (.response false 0x00010140))
      ∧ verdictWord 2 4 2 10 10 false = some (some (.response false 0x00010140))
      ∧ verdictWord 2 3 2 20 10 false = some (some (.response false 0x00020140)) := by decide
/-- V-V13 (signed comparison) and V-V15 (`DECODED`). -/
theorem test_verd_signed_decoded :
    verdictWord 2 4 2 0xFFFA 0x0005 false = some (some (.response false 0x00000000))
      ∧ verdictWord 2 2 2 20 10 true = some (some (.response false 0x000A0140)) := by decide

/-! ### Transmit side -/

/-- V-X1. -/
theorem test_tenc_fetches :
    after (execTenc { toy with
        seq := 0xA, ctrl := 8, env := { toy.env with txc := [some 0x74, none] } } Config.t1)
      (fun t => (t.txBits.take 5, t.txIdx, t.txN, t.trace))
      = some ([true, false, true, false, false], 1, 4,
          [.sourceCall 0 (some 0x74), .textBit true]) := by decide
/-- V-X3 in the last slot: the last bit, then the response. -/
theorem test_tenc_last_slot :
    after (execTenc { toy with
        seq := 0xA, slot := 3, txIdx := 4, txN := 1
        txBits := [true, false, true, false, false] ++ List.replicate 7 false } Config.t1)
      (fun t => (t.txIdx, t.txN, t.trace, t.slot, t.seq))
      = some (5, 0, [.textBit false, .response false 0], 0, 0) := by decide

/-- V-P2: padding with other widths (the LLRs as codes). -/
theorem test_pad : pad { Config.t1 with K := 2, ND := 5, NC := 8, B := 5 } [5, 65530, 7, 65528, 9]
    = [5, 65530, 65436, 65436, 65436, 7, 65528, 9] := by decide

/-! ### Hypotheses that can be met

One theorem for each obligation with hypotheses. Those that ask for a geometry (`D`, `T`, `OUT_BYTES`) are
met on T1, which is one of the configurations `Config.cfg` can be; the others on `Config.cfg`
itself. -/

theorem witness_EncodeInvertsDecode : decode (.command 0x04000001) = .ok (.rdb 1)
    ∧ decode (.phase 0xA) = .ok .tenc := by decide

/-- In a phase, and in IDLE with a word waiting. -/
theorem witness_StepRunsInstruction :
    (let s := { State.reset with seq := Phase.adv }
     s.env.rst = false ∧ stalled Config.cfg s = false ∧ decodePhase s.seq = .ok .adv)
    ∧ (let s := { State.reset with env := { Env.quiet with cmd := [0x11000000] } }
       s.env.rst = false ∧ stalled Config.cfg s = false ∧ s.seq = Phase.idle
         ∧ s.env.cmd = 0x11000000 :: [] ∧ decodeCommand 0x11000000 = .ok .txt) :=
  ⟨⟨rfl, rfl, rfl⟩, rfl, rfl, rfl, rfl, by decide⟩

theorem witness_ResetPinRestoresReset :
    ({ State.reset with seq := Phase.dsub, env := { Env.quiet with rst := true } } : State).env.rst
      = true := rfl

/-- A good idle state that is not the reset state: squelch on, the physical layer synchronised. -/
def idleState (e : Env) : State := { State.reset with ctrl := 2, phy := Phy.synced, env := e }

theorem idleState_good (e : Env) : Inv Config.cfg (idleState e) where
  memory := memory_congr (memory_reset Config.cfg e []) rfl rfl rfl
  fci_range := Nat.zero_le _
  full_only_in_wchk := fun h => Bool.noConfusion h
  tx_bits := List.length_replicate
  tx_idx := Nat.zero_le _
  tx_n := Nat.zero_le _
  tx_pattern := fun h => absurd h (Nat.lt_irrefl 0)
  rx_idle := fun _ => rfl
  rx_inside := fun h => Bool.noConfusion h
  pcc_range := Nat.zero_le _
  iter_range := Nat.zero_le _
  err_range := Nat.zero_le _
  phy_legal := (by decide : Phy.synced ≠ Phy.reserved)
  seq_legal := Nat.zero_le _
  subf_range := fun h => absurd h (by decide : Phase.idle ≠ Phase.dsub)
  subf_rest := fun _ => rfl
  slot_tdec := fun h => absurd h (by decide : Phase.idle ≠ Phase.tdec)
  slot_tenc := fun h => absurd h (by decide : Phase.idle ≠ Phase.tenc)
  slot_rest := fun _ _ => rfl
  latch_idle := fun _ => rfl
  latch_legal := (by decide : (0 : BitVec 2) ≠ Phy.reserved ∧ (0 : BitVec 2) ≠ Phy.reserved)
  items_gate := fun h => absurd h (by decide : Phase.idle ≠ Phase.gate)
  items_taken := fun h => absurd h
    (by unfold frameInHand; decide : ¬(frameInHand Phase.idle ∨ Phase.idle = Phase.adv ∨ Phase.idle = Phase.verd))
  frame_gate := fun h => absurd h (by unfold frameInHand; decide : ¬frameInHand Phase.idle)
  decode_pass := fun h => absurd h (by decide : Phase.idle ≠ Phase.dsub)

theorem witness_StepKeepsGoodStates :
    let s := idleState { Env.quiet with cmd := [0x10000000] }
    ∃ t, Inv Config.cfg s ∧ step s = .next t ∧ t.seq = Phase.gate :=
  ⟨_, idleState_good _, rfl, rfl⟩

theorem witness_GoodStatesNeverStop : ∃ s, Inv Config.cfg s ∧ s.env.cmd ≠ [] :=
  ⟨idleState { Env.quiet with cmd := [0x11000000] }, idleState_good _, by decide⟩

/-- Each of the nine waits, on T1. -/
theorem witness_WaitingChangesNothing :
    (toy.seq = Phase.idle ∧ toy.env.cmd = [])
    ∧ (let s := { toy with env := { toy.env with cmd := [0x00000000], rspReady := false } }
       s.seq = Phase.idle ∧ s.env.rspReady = false ∧ s.env.cmd = 0x00000000 :: []
         ∧ decodeCommand 0x00000000 = .ok .nop ∧ Instr.nop ≠ .txt
         ∧ ∀ phyGate phyPost, Instr.nop ≠ .rxf phyGate phyPost)
    ∧ (let s := { toy with seq := Phase.tenc, slot := 3, ctrl := 8 }
       s.seq = Phase.tenc ∧ s.slot < Config.t1.D * Config.t1.T ∧ s.txN = 0 ∧ s.srcEn = true
         ∧ s.env.txc = [])
    ∧ (let s := { toy with seq := Phase.verd, env := { toy.env with rspReady := false } }
       s.env.rst = false ∧ s.seq = Phase.verd ∧ s.env.rspReady = false)
    ∧ (let s := { toy with seq := Phase.tenc, slot := 3, env := { toy.env with rspReady := false } }
       s.seq = Phase.tenc ∧ s.slot + 1 = Config.t1.D * Config.t1.T ∧ s.env.rspReady = false)
    ∧ (let s := { toy with seq := Phase.tenc, slot := 0, env := { toy.env with tboReady := false } }
       s.seq = Phase.tenc ∧ s.slot < Config.t1.D * Config.t1.T ∧ s.env.tboReady = false)
    ∧ (let s := { inRxf with seq := Phase.tdec, slot := 1, ctrl := 4, rxIn := true,
                             rxCode := [true, true, false],
                             env := { toy.env with rxcReady := false } }
       s.seq = Phase.tdec ∧ s.slot < Config.t1.T ∧ s.sinkEn = true
         ∧ (decStep Config.t1 s.rxIn s.rxCode (slotBit Config.t1 s s.slot)).2.2 ≠ none
         ∧ s.env.rxcReady = false)
    ∧ (let s := { windowA with
         seq := Phase.isyn, fci := 1, env := { toy.env with s2lReady := false } }
       s.seq = Phase.isyn ∧ s.ilvSynced = false ∧ Config.t1.D ≤ s.fci + 1
         ∧ s.env.s2lReady = false)
    ∧ (let s := { windowA with
         seq := Phase.dsub, subf := 1, env := { toy.env with decReady := false } }
       s.seq = Phase.dsub ∧ s.subf < Config.t1.D ∧ s.env.decReady = false) := by
  refine ⟨by decide, ⟨by decide, by decide, by decide, by decide, by decide, by simp⟩, by decide,
    by decide, by decide, by decide, by decide, by decide, by decide⟩

/-- Each error at the first value that raises it; the byte index on T1. -/
theorem witness_ErrorsLeaveOnlyTheirCode :
    0x03 < (0x04 : BitVec 8).toNat ∧ 0x0D < (0x0E : BitVec 8).toNat
      ∧ Config.t1.OUT_BYTES ≤ (1 : BitVec 16).toNat ∧ ((3 : BitVec 2) = 3 ∨ (0 : BitVec 2) = 3)
      ∧ ((0 : BitVec 2) = 3 ∨ (3 : BitVec 2) = 3)
      ∧ decodeCommand 0x11000001 = .error .illegalCommand := by decide

theorem witness_CsrwWritesItsRegister : (0 : BitVec 8).toNat ≤ 0x03 ∧ (3 : BitVec 8).toNat ≤ 0x03 := by
  decide

theorem witness_CsrrReadsItsRegister :
    (0 : BitVec 8).toNat ≤ 0x0D ∧ (0x0D : BitVec 8).toNat ≤ 0x0D := by
  decide

theorem witness_RdbReadsPackedByte : (0 : BitVec 16).toNat < Config.cfg.OUT_BYTES := by
  have h1 := Config.cfg_wf.D_pos
  have h2 := Config.cfg_wf.K_pos
  have : 1 ≤ Config.cfg.D * Config.cfg.K := Nat.mul_pos h1 h2
  show 0 < (Config.cfg.D * Config.cfg.K + 7) / 8
  omega

theorem witness_RxfBeginsAtGate : (0 : BitVec 2) ≠ 3 ∧ (2 : BitVec 2) ≠ 3 := by decide

theorem witness_IdleRunsOfferedCommand :
    toy.env.cmd = []
      ∧ ∃ (s : State) (w : Word) (i : Instr), s.env.cmd = w :: [] ∧ decodeCommand w = .ok i ∧ i.isCommand = true :=
  ⟨rfl, { toy with env := { toy.env with cmd := [0x04000001] } }, 0x04000001, .rdb 1, by decide⟩

/-- Searching, and on T1 absorbing with part of the items taken before. -/
theorem witness_GateTakesItemsAndBranches :
    (let s := idleState { Env.quiet with din := [5, 6] }
     s.lat.gate = 0 ∧ s.lat.items.length < 2 ∧ 2 ≤ s.lat.items.length + s.env.din.length)
    ∧ (let s := { toy with
         lat := { gate := 2, post := 2, items := [7] }
         env := { toy.env with din := List.replicate 15 0 } }
       s.lat.gate ≠ 0 ∧ s.lat.items.length < 3 + 3 + 2 * 4 + 2
         ∧ 3 + Config.t1.U + 2 * Config.t1.S + Config.t1.T
           ≤ s.lat.items.length + s.env.din.length) := by
  decide

theorem witness_GateWaitsForItems :
    let s := idleState { Env.quiet with din := [5] }
    s.lat.items.length + s.env.din.length < neededItems Config.cfg s.lat.gate := by decide

theorem witness_StreamItemsByPosition :
    inRxf.lat.items.length = 3 + Config.t1.U + 2 * Config.t1.S + Config.t1.T
      ∧ ∀ k < 3 + Config.t1.U + 2 * Config.t1.S + Config.t1.T,
          inRxf.lat.items[k]? = some (frameA.getD k 0) := by decide

/-- The reset window with an all-zero frame in hand, on `Config.cfg`. -/
def zeroFrame : State :=
  { State.reset with lat := {
      gate := 2, post := 2
      items := List.replicate (3 + Config.cfg.U + 2 * Config.cfg.S + Config.cfg.T) 0 } }

theorem witness_ShapShiftsAndAppends :
    zeroFrame.winSym.length = Config.cfg.N ∧ zeroFrame.winAmp.length = Config.cfg.N
      ∧ zeroFrame.lat.items.length = 3 + Config.cfg.U + 2 * Config.cfg.S + Config.cfg.T :=
  ⟨List.length_replicate, List.length_replicate, List.length_replicate⟩

/-- `D` zero frames, one after the other. -/
theorem witness_DeinterleaverUndoesInterleaver :
    let u : Nat → State := fun _ => zeroFrame
    let v : Nat → State := fun _ => shap Config.cfg zeroFrame
    (u 0).winSym.length = Config.cfg.N ∧ (∀ f < Config.cfg.D, exec .shap (u f) = .next (v f))
      ∧ (∀ f, f + 1 < Config.cfg.D → (u (f + 1)).winSym = (v f).winSym)
      ∧ (∀ f < Config.cfg.D, (inSym Config.cfg (u f)).length = Config.cfg.S)
      ∧ (∀ f < Config.cfg.D, ∀ i < Config.cfg.S, (inSym Config.cfg (u f))[i]? = some 0) := by
  have hsym : inSym Config.cfg zeroFrame = List.replicate Config.cfg.S 0 := by
    simp [inSym, itemsFrom, zeroFrame]
    omega
  have hN : Config.cfg.S ≤ Config.cfg.N := Nat.le_mul_of_pos_left _ Config.cfg_wf.D_pos
  refine ⟨List.length_replicate, fun _ _ => rfl, fun _ _ => ?_, fun _ _ => by simp [hsym],
    fun _ _ i hi => by simp [hsym, hi]⟩
  have : (shap Config.cfg zeroFrame).winSym
      = (List.replicate Config.cfg.N 0).drop Config.cfg.S ++ inSym Config.cfg zeroFrame := rfl
  rw [this, hsym, List.drop_replicate, List.replicate_append_replicate, Nat.sub_add_cancel hN]
  rfl

/-- Both clauses, at `FCI = D - 1`, `FCI = D` and synchronised. -/
theorem witness_IsynCountsAndTries :
    (let s := { State.reset with fci := Config.cfg.D - 1 }
     s.ilvSynced = false ∧ Config.cfg.D ≤ s.fci + 1)
    ∧ (let s := { State.reset with fci := Config.cfg.D }
       s.ilvSynced = false ∧ Config.cfg.D ≤ s.fci + 1)
    ∧ ({ State.reset with ilvSynced := true } : State).ilvSynced = true := by
  refine ⟨⟨rfl, ?_⟩, ⟨rfl, Nat.le_succ _⟩, rfl⟩
  show Config.cfg.D ≤ Config.cfg.D - 1 + 1
  omega

theorem witness_WchkStartsDecodePass :
    (let s := { State.reset with ilvSynced := true, fci := Config.cfg.D }
     s.ilvSynced = true ∧ s.fci = Config.cfg.D)
    ∧ ¬(State.reset.ilvSynced = true ∧ State.reset.fci = Config.cfg.D) :=
  ⟨⟨rfl, rfl⟩, fun h => absurd h.1 (by decide)⟩

theorem witness_AdvLatchesAndDrops : State.reset.lat.post = 0 ∧ zeroFrame.lat.post ≠ 0 := by decide

theorem witness_SyncLostOnlyWithoutSignal :
    let s := { State.reset with seq := Phase.adv, ilvSynced := true }
    ∃ t, step s = .next t ∧ s.ilvSynced = true ∧ t.ilvSynced = false := ⟨_, rfl, rfl, rfl⟩

/-- Every row of the table: not synchronised with a low and a full count, synchronised with a low and a
last count (T1 has `D = 2`), accepted and rejected trials, each with a frame queued. -/
theorem witness_SyncTransitionTable :
    (let s := idleState { Env.quiet with din := [1, 2] }
     Inv Config.cfg s ∧ s.seq = Phase.idle ∧ neededItems Config.cfg 0 ≤ s.env.din.length)
    ∧ neededItems Config.t1 2 ≤ frameA.length
    ∧ (toy.ilvSynced = false ∧ toy.fci + 1 < Config.t1.D)
    ∧ (let s := { toy with fci := 1 }
       s.ilvSynced = false ∧ min (s.fci + 1) Config.t1.D = Config.t1.D)
    ∧ (let s := { toy with ilvSynced := true, fci := 0 }
       s.ilvSynced = true ∧ s.fci + 1 < Config.t1.D)
    ∧ (let s := { toy with ilvSynced := true, fci := 1 }
       s.ilvSynced = true ∧ s.fci + 1 = Config.t1.D)
    ∧ (let r := fecDecode Config.t1 windowA 0
       r.pcc = Config.t1.NPCHK ∧ r.iter ≤ Config.t1.TRIAL_ITER_MAX)
    ∧ (let r := fecDecode Config.t1 toy 0
       ¬(r.pcc = Config.t1.NPCHK ∧ r.iter ≤ Config.t1.TRIAL_ITER_MAX)) :=
  ⟨⟨idleState_good _, rfl, by decide⟩, by decide⟩

/-- A step from SHAP, and the two reading phases with `D` fresh frames. -/
theorem witness_DecodedWindowIsFresh :
    (let s := { State.reset with seq := Phase.shap }
     ∃ t, FreshFor Config.cfg s 0 ∧ step s = .next t)
    ∧ (let s := { State.reset with seq := Phase.dsub, ilvSynced := true }
       FreshFor Config.cfg s Config.cfg.D ∧ s.seq = Phase.dsub)
    ∧ (let s := { State.reset with seq := Phase.isyn, fci := Config.cfg.D - 1 }
       FreshFor Config.cfg s Config.cfg.D ∧ s.seq = Phase.isyn ∧ s.ilvSynced = false
         ∧ Config.cfg.D ≤ s.fci + 1) := by
  have hD := Config.cfg_wf.D_pos
  refine ⟨⟨_, ?_, rfl⟩, ⟨?_, rfl⟩, ?_, rfl, rfl, ?_⟩
  · simp [FreshFor, State.reset, State.resetOn]
  · simp [FreshFor]
  · refine ⟨fun _ => ?_, fun _ => hD, fun h => absurd h (by decide), fun h => absurd h (by decide)⟩
    show Config.cfg.D - 1 = min (Config.cfg.D - 1) Config.cfg.D
    omega
  · show Config.cfg.D ≤ Config.cfg.D - 1 + 1
    omega

/-- T1 without padding, for the clause `ND = K`: the parity bits are then the last four of eight. -/
def unpadded : Config :=
  { Config.t1 with
    ND := 4, NC := 8
    DEC := fun full => { toyDEC full with bits := (toyDEC full).bits.take 4 } }

theorem unpadded_wf : unpadded.WF :=
  { Config.t1_wf with
    data_capacity := by decide
    coded_capacity := by decide
    coded_bits := by decide
    dec_length := fun _ => by simp [unpadded, toyDEC]
    dec_iter := toyDEC_iter
    dec_pcc := toyDEC_pcc }

/-- Every range of indices on T1 at its ends, and a configuration without padding. -/
theorem witness_PadLayout :
    Config.t1.WF ∧ (List.replicate 8 0).length = Config.t1.B
      ∧ 3 < Config.t1.K ∧ (Config.t1.K ≤ 4 ∧ 5 < Config.t1.ND)
      ∧ (Config.t1.ND ≤ 6 ∧ 9 < Config.t1.NC) ∧ unpadded.WF ∧ unpadded.ND = unpadded.K :=
  ⟨Config.t1_wf, rfl, by decide, by decide, by decide, unpadded_wf, rfl⟩

theorem witness_SubFrameReadsThroughPermutation :
    Config.t1.WF ∧ toy.winSym.length = Config.t1.N ∧ toy.winAmp.length = Config.t1.N
      ∧ 0 < Config.t1.D ∧ 1 < Config.t1.D :=
  ⟨Config.t1_wf, by decide⟩

/-- The last sub-frame on `Config.cfg`, and on T1 one before it. -/
theorem witness_DsubStoresPayload :
    (let s := { State.reset with subf := Config.cfg.D - 1 }
     s.subf < Config.cfg.D ∧ s.ctrl.getLsbD 0 = false
       ∧ s.outbuf.length = Config.cfg.D * Config.cfg.K ∧ Config.cfg.D ≤ s.subf + 1)
    ∧ toy.subf + 1 < Config.t1.D := by
  have hD := Config.cfg_wf.D_pos
  refine ⟨⟨?_, rfl, List.length_replicate, ?_⟩, by decide⟩
  · show Config.cfg.D - 1 < Config.cfg.D
    omega
  · show Config.cfg.D ≤ Config.cfg.D - 1 + 1
    omega

theorem witness_DsubScoresInTestMode :
    (let s := { State.reset with ctrl := 1 }
     s.subf < Config.cfg.D ∧ s.ctrl.getLsbD 0 = true) ∧ toy.subf + 1 < Config.t1.D :=
  ⟨⟨Config.cfg_wf.D_pos, by decide⟩, by decide⟩

theorem witness_DecodePassFillsOutbuf :
    let s := { State.reset with seq := Phase.dsub }
    s.seq = Phase.dsub ∧ s.subf = 0 ∧ EnvOpen s.env ∧ s.ctrl.getLsbD 0 = false
      ∧ s.outbuf.length = Config.cfg.D * Config.cfg.K :=
  ⟨rfl, rfl, ⟨rfl, rfl, rfl, rfl, rfl, rfl⟩, by decide, List.length_replicate⟩

/-- A character with an entry and one without. -/
theorem witness_PatternOfCharacter :
    Config.t1.WF ∧ (0x65, [true, true]) ∈ Config.t1.TXT_TABLE
      ∧ ∀ w, (0x7A, w) ∉ Config.t1.TXT_TABLE :=
  ⟨Config.t1_wf, by decide, fun w => by simp [Config.t1]⟩

/-- A terminator, the overrun at length 12 and the last bit before it. -/
theorem witness_DecoderStepCases :
    Config.t1.WF ∧ [true, true, false] ++ [false] = [true, true] ++ [false, false]
      ∧ (¬∃ cw, List.replicate 11 true ++ [true] = cw ++ [false, false])
      ∧ Config.t1.TXT_CODE_MAX + 2 ≤ (List.replicate 11 true).length + 1
      ∧ (¬∃ cw, List.replicate 10 true ++ [true] = cw ++ [false, false])
      ∧ (List.replicate 10 true).length + 1 < Config.t1.TXT_CODE_MAX + 2 := by
  have no : ∀ l cw : List Bit, l ++ [true] ≠ cw ++ [false, false] := fun l cw h => by
    have := congrArg List.getLast? h
    simp at this
  exact ⟨Config.t1_wf, rfl, fun ⟨cw, h⟩ => no _ cw h, by decide, fun ⟨cw, h⟩ => no _ cw h, by decide⟩

/-- On T1: both slots, a character delivered, one dropped, none completed, and no slot left. -/
theorem witness_TdecDecodesItsSlot :
    (let s := { inRxf with rxIn := true, rxCode := [true, true, false], slot := 1, ctrl := 4 }
     s.slot < Config.t1.T ∧ (inTxt Config.t1 s)[s.slot]? = some false
       ∧ (decStep Config.t1 s.rxIn s.rxCode false).2.2 = some 0x65 ∧ s.ctrl.getLsbD 2 = true
       ∧ Config.t1.T ≤ s.slot + 1)
    ∧ (inRxf.slot + 1 < Config.t1.T ∧ (inTxt Config.t1 inRxf)[inRxf.slot]? = some false
       ∧ (decStep Config.t1 inRxf.rxIn inRxf.rxCode false).2.2 = none
       ∧ inRxf.ctrl.getLsbD 2 = false)
    ∧ Config.t1.T ≤ ({ inRxf with slot := 2 } : State).slot := by decide

/-- On T1: each case of a slot, and no slot left. -/
theorem witness_TencFillsItsSlot :
    (let s := { toy with slot := 3, txN := 1, txIdx := 4 }
     s.slot < Config.t1.D * Config.t1.T ∧ 0 < s.txN ∧ s.txBits[s.txIdx]? = some false)
    ∧ (toy.txN = 0 ∧ toy.ctrl.getLsbD 3 = false)
    ∧ (let s := { toy with ctrl := 8 }
       s.txN = 0 ∧ s.ctrl.getLsbD 3 = true ∧ s.env.txc = [])
    ∧ pat Config.t1 0x7A = []
    ∧ (let s := { toy with ctrl := 8, env := { toy.env with txc := [some 0x65] } }
       s.txN = 0 ∧ s.ctrl.getLsbD 3 = true ∧ s.env.txc = some 0x65 :: []
         ∧ pat Config.t1 0x65 = true :: [true, false, false])
    ∧ Config.t1.D * Config.t1.T ≤ ({ toy with slot := 4 } : State).slot := by decide

/-- V-X7 without `z`: the source yields `e`, then none; five slots cut into frames of two and three. -/
theorem witness_TextRoundTrip :
    let s := { toy with ctrl := 8, env := { toy.env with txc := [some 0x65, none] } }
    Config.t1.WF ∧ (∀ ch ∈ [(0x65 : Char8)], pat Config.t1 ch ≠ []) ∧ s.txN = 0
      ∧ s.ctrl.getLsbD 3 = true ∧ s.txBits.length = Config.t1.TXT_CODE_MAX + 2
      ∧ s.env.txc = [(0x65 : Char8)].map some ++ List.replicate 1 none
      ∧ 5 = ([(0x65 : Char8)].map fun ch => (pat Config.t1 ch).length).sum + 1
      ∧ [[true, true], [false, false, false]].flatten
        = textBits (((encodeSlot Config.t1)^[5] s).trace.drop s.trace.length) :=
  ⟨Config.t1_wf, by decide⟩

theorem witness_UwerCountsErrors :
    zeroFrame.lat.items.length = 3 + Config.cfg.U + 2 * Config.cfg.S + Config.cfg.T
      ∧ differing Config.t1.U (fun i => (inUw Config.t1 inRxf)[i]?) (fun i => Config.t1.UW[i]?)
        < 2 ^ 16 :=
  ⟨List.length_replicate, by decide⟩

/-- The premises of the eleven rows, on T1: `all` and not, `low` and not, the three states. -/
theorem witness_VerdictTable :
    (let s := fun (post : BitVec 2) (pcc : BitVec 16) (ctrl : BitVec 4) (snr : Code) =>
       { toy with pcc := pcc, ctrl := ctrl, sqth := 10,
                  lat := { gate := 2, post := post, items := [640, snr] } }
     ∀ post : BitVec 2, (s post 4 0 20).lat.post = post
       ∧ (s post 4 0 20).pcc.toNat = Config.t1.NPCHK ∧ (s post 3 0 20).pcc.toNat ≠ Config.t1.NPCHK
       ∧ (s post 4 0 20).ctrl.getLsbD 1 = false ∧ (s post 4 2 20).ctrl.getLsbD 1 = true
       ∧ ¬(inSnrEst (s post 4 2 10)).toInt < (s post 4 2 10).sqth.toInt
       ∧ (inSnrEst (s post 4 2 9)).toInt < (s post 4 2 9).sqth.toInt) := by decide

theorem witness_VerdictMonotoneInSnr :
    let s := { zeroFrame with lat := { gate := 2, post := 2, items := [640, 20] } }
    let s' := { s with lat := { s.lat with items := s.lat.items.set 1 5 } }
    (inSnrEst s').toInt ≤ (inSnrEst s).toInt
      ∧ (∃ t w, exec .verd s = .next t ∧ t.trace = s.trace ++ [.response false w])
      ∧ ∃ t' w', exec .verd s' = .next t' ∧ t'.trace = s.trace ++ [.response false w'] :=
  ⟨by decide, ⟨_, _, rfl, rfl⟩, _, _, rfl, rfl⟩

/-- A session step that changes the counters, on `Config.cfg`. -/
theorem witness_CountersNeverDecrease :
    let s := { zeroFrame with seq := Phase.uwer }
    ∃ t, step s = .next t ∧ s.env.rst = false ∧ takesSrst s = false :=
  ⟨_, rfl, rfl, rfl⟩

theorem witness_FirstErrorSticks :
    let s := { idleState { Env.quiet with cmd := [0x11000001] } with err := 3 }
    ∃ t, step s = .next t ∧ s.env.rst = false ∧ takesSrst s = false ∧ s.err ≠ 0 :=
  ⟨_, rfl, rfl, by decide, by decide⟩

theorem witness_OneResponsePerCommand :
    let s := idleState { Env.quiet with cmd := [0x00000000] }
    ∃ t, step s = .next t ∧ s.env.rst = false ∧ s.seq = Phase.idle :=
  ⟨_, rfl, rfl, rfl⟩

/-- A step of ISYN at a full count, of TENC and of TDEC. -/
theorem witness_CollaboratorsInvokedInOrder :
    (∃ t, step { zeroFrame with seq := Phase.isyn, fci := Config.cfg.D } = .next t)
      ∧ (∃ t, step { zeroFrame with seq := Phase.tdec } = .next t)
      ∧ zeroFrame.env.rst = false :=
  ⟨⟨_, rfl⟩, ⟨_, rfl⟩, rfl⟩

theorem witness_TextSidesIndependent :
    let s := { zeroFrame with seq := Phase.tdec }
    let q := { State.reset with seq := Phase.tenc, slot := Config.cfg.D * Config.cfg.T }
    (∃ t, step s = .next t ∧ s.env.rst = false ∧ takesSrst s = false ∧ s.seq ≠ Phase.tenc)
      ∧ ∃ t, step q = .next t ∧ q.env.rst = false ∧ takesSrst q = false ∧ q.seq = Phase.tenc :=
  ⟨⟨_, rfl, rfl, rfl, by decide⟩, _, rfl, rfl, rfl, rfl⟩

theorem witness_StorageWriters :
    let s := { zeroFrame with seq := Phase.dsub, ctrl := 1 }
    ∃ t, step s = .next t ∧ s.env.rst = false ∧ takesSrst s = false ∧ s.seq ≠ Phase.shap
      ∧ s.testMode = true :=
  ⟨_, rfl, rfl, rfl, by decide, by decide⟩

/-- Steps that change each flag. -/
theorem witness_FlagWriters :
    (let s := { zeroFrame with seq := Phase.adv, ilvSynced := true, lat := Latch.empty }
     ∃ t, step s = .next t ∧ s.env.rst = false ∧ takesSrst s = false ∧ t.ilvSynced ≠ s.ilvSynced)
    ∧ (let s := idleState { Env.quiet with cmd := [0x11000001] }
       ∃ t, step s = .next t ∧ s.env.rst = false ∧ takesSrst s = false ∧ t.err ≠ s.err)
    ∧ (let s := { windowA with fci := 2, ilvSynced := true }
       after (execWchk s Config.t1) (·.decoded) ≠ some s.decoded)
    ∧ (let s := { inRxf with rxIn := true, rxCode := [true, false], ctrl := 4 }
       after (execTdec s Config.t1) (·.rxIn) ≠ some s.rxIn) :=
  ⟨⟨_, rfl, rfl, rfl, by decide⟩, ⟨_, rfl, rfl, by decide, by decide⟩, by decide, by decide⟩

theorem witness_DecodeResultsPersist :
    let s := { State.reset with seq := Phase.adv, pcc := 1 }
    ∃ t, step s = .next t ∧ s.env.rst = false ∧ takesSrst s = false ∧ s.seq ≠ Phase.isyn
      ∧ s.seq ≠ Phase.dsub ∧ t.pcc ≠ s.pcc :=
  ⟨_, rfl, rfl, rfl, by decide, by decide, by decide⟩

theorem witness_ModesChangeOnlyByCsrw :
    let s := idleState { Env.quiet with cmd := [0x02000006] }
    ∃ t, step s = .next t ∧ s.env.rst = false ∧ takesSrst s = false ∧ t.ctrl ≠ s.ctrl :=
  ⟨_, rfl, rfl, by decide, by decide⟩

/-- A searching RXF, and an absorbing one with its whole frame queued. -/
theorem witness_RxfRunsItsMicroProgram :
    (let s := idleState { Env.quiet with
       cmd := [0x10080000], din := List.replicate (neededItems Config.cfg Phy.searching) 0 }
     Inv Config.cfg s ∧ s.seq = Phase.idle ∧ EnvOpen s.env
       ∧ encode (.rxf Phy.searching Phy.synced) = .command 0x10080000
       ∧ s.env.cmd = 0x10080000 :: []
       ∧ neededItems Config.cfg Phy.searching ≤ s.env.din.length)
    ∧ (let s := idleState { Env.quiet with
         cmd := [0x100A0000], din := List.replicate (neededItems Config.cfg Phy.synced) 0 }
       Inv Config.cfg s ∧ s.seq = Phase.idle ∧ EnvOpen s.env
         ∧ encode (.rxf Phy.synced Phy.synced) = .command 0x100A0000
         ∧ s.env.cmd = 0x100A0000 :: []
         ∧ neededItems Config.cfg Phy.synced ≤ s.env.din.length) :=
  ⟨⟨idleState_good _, rfl, ⟨rfl, rfl, rfl, rfl, rfl, rfl⟩, by decide, rfl, by decide⟩,
    idleState_good _, rfl, ⟨rfl, rfl, rfl, rfl, rfl, rfl⟩, by decide, rfl,
    le_of_eq List.length_replicate.symm⟩

theorem witness_TxtRunsItsSlots :
    let s := idleState { Env.quiet with
      cmd := [0x11000000], txc := List.replicate (Config.cfg.D * Config.cfg.T) none }
    Inv Config.cfg s ∧ s.seq = Phase.idle ∧ EnvOpen s.env ∧ s.env.cmd = 0x11000000 :: []
      ∧ Config.cfg.D * Config.cfg.T ≤ s.env.txc.length :=
  ⟨idleState_good _, rfl, ⟨rfl, rfl, rfl, rfl, rfl, rfl⟩, rfl, by simp [idleState]⟩

/-- Squelch on, and off. -/
theorem witness_SearchingCallScenario :
    let s := idleState { Env.quiet with cmd := [0x10000000], din := [0x02800280, 0] }
    Inv Config.cfg s ∧ s.seq = Phase.idle ∧ EnvOpen s.env ∧ s.env.cmd = 0x10000000 :: []
      ∧ s.env.din = 0x02800280 :: 0 :: [] ∧ s.ctrl.getLsbD 1 = true
      ∧ State.reset.ctrl.getLsbD 1 = false :=
  ⟨idleState_good _, rfl, ⟨rfl, rfl, rfl, rfl, rfl, rfl⟩, rfl, rfl, by decide, by decide⟩

end Sys2Proof.Tests
end

/-! ## Whole commands: the sequencer's steps of an RXF and of a TXT (spec/30_encoding.md R70, R71) -/

section
/-! ### Runs of the sequencer while the outside accepts everything -/

namespace Sys2Proof.Machine

open Sys2Proof.Claims

/-- A run of `j` steps that ends in a next state goes on from there. -/
theorem run_add (M : Host.Core) {j : Nat} {s t : M.State} (k : Nat) (h : M.run j s = .next t) :
    M.run (j + k) s = M.run k t := by
  induction j generalizing s with
  | zero =>
    cases h
    rw [Nat.zero_add]
  | succ j ih =>
    rw [Nat.succ_add, Host.Core.run]
    rw [Host.Core.run] at h
    split at h
    · exact ih h
    · cases h
    · cases h

theorem run_one (M : Host.Core) {s t : M.State} (h : M.step s = .next t) :
    M.run 1 s = .next t := by
  simp only [Host.Core.run, h]

/-- Some number of steps leads from `s` to `t`. -/
def Reaches (s t : State) : Prop := ∃ k, Sys2Proof.core.run k s = .next t

theorem Reaches.refl (s : State) : Reaches s s := ⟨0, rfl⟩

theorem Reaches.of_step {s t : State} (h : step s = .next t) : Reaches s t :=
  ⟨1, run_one Sys2Proof.core h⟩

theorem Reaches.trans {s t u : State} (h : Reaches s t) (hu : Reaches t u) : Reaches s u := by
  obtain ⟨j, hj⟩ := h
  obtain ⟨k, hk⟩ := hu
  exact ⟨j + k, (run_add Sys2Proof.core k hj).trans hk⟩

/-- A loop of `n` passes, each of which the sequencer runs. -/
theorem Reaches.iterate {f : State → State} {s : State} (n : Nat)
    (h : ∀ k < n, Reaches (f^[k] s) (f (f^[k] s))) : Reaches s (f^[n] s) := by
  induction n with
  | zero => exact .refl s
  | succ n ih =>
    rw [Function.iterate_succ_apply']
    exact (ih fun k hk => h k (by omega)).trans (h n (by omega))

/-- Nothing waits for an outside that accepts and answers everything (R168). -/
theorem stalled_of_open (c : Config) {s : State} (ho : EnvOpen s.env) : stalled c s = false := by
  obtain ⟨hrsp, htbo, hrxc, hs2l, hdec, -⟩ := ho
  simp [stalled, hrsp, htbo, hrxc, hs2l, hdec]

/-- The phase in SEQ runs (R70). -/
theorem reaches_of_exec {s t : State} {i : Instr} (ho : EnvOpen s.env)
    (hi : decodePhase s.seq = .ok i) (h : exec i s = .next t) : Reaches s t := by
  refine .of_step ?_
  have ⟨_, _, _, _, _, hrst⟩ := ho
  rw [step, hrst, stalled_of_open _ ho, hi]
  exact h

/-- IDLE takes the offered command and runs it (R70, R76). -/
theorem reaches_of_command {s t : State} {w : Word} {rest : List Word} {i : Instr}
    (ho : EnvOpen s.env) (hq : s.seq = Phase.idle) (hcmd : s.env.cmd = w :: rest)
    (hi : decodeCommand w = .ok i)
    (h : runCommand Config.cfg i { s with env := { s.env with cmd := rest } } = .next t) :
    Reaches s t := by
  refine reaches_of_exec (i := .idle) ho (by rw [hq]; rfl) ?_
  rw [exec, execIdle, hcmd]
  simpa only [acceptCommand, hi] using h

/-- An `RXF` word decodes to its command (R61, R63). -/
theorem decodeCommand_of_encode_rxf {phyGate phyPost : BitVec 2} {w : Word}
    (h : encode (.rxf phyGate phyPost) = .command w) :
    decodeCommand w = .ok (.rxf phyGate phyPost) := by
  cases h
  revert phyGate phyPost
  decide

end Sys2Proof.Machine
end

section
/-! ### TXT: one TENC step for each slot (R86, R93) -/

namespace Sys2Proof.Machine

open Sys2Proof.Claims

/-- The sequencer registers SEQ and SLOT (R29) set, all else kept. -/
def State.place (p : BitVec 4) (k : Nat) (s : State) : State := { s with seq := p, slot := k }

theorem loadPattern_place (bits : List Bit) (p : BitVec 4) (k : Nat) (s : State) :
    loadPattern bits (s.place p k) = (loadPattern bits s).place p k := by
  unfold loadPattern
  split <;> rfl

theorem emitBit_place (p : BitVec 4) (k : Nat) (s : State) :
    emitBit (s.place p k) = (emitBit s).place p k := by
  unfold emitBit
  change (if s.txN = 0 then _ else _) = _
  split <;> rfl

/-- A pending bit, or a disabled source: nothing is fetched (R93). -/
theorem fetchChar_of_not_asking (c : Config) {s : State} (h : ¬(s.txN = 0 ∧ s.srcEn = true)) :
    fetchChar c s = some s := if_neg h

theorem fetchChar_of_no_answer (c : Config) {s : State} (hn : s.txN = 0) (he : s.srcEn = true)
    (ha : s.env.txc = []) : fetchChar c s = none := by
  rw [fetchChar, if_pos ⟨hn, he⟩, ha]

/-- The source's next answer is taken and its pattern loaded (R92, R93). -/
theorem fetchChar_of_answer (c : Config) {s : State} {answer : Option Char8}
    {rest : List (Option Char8)} (hn : s.txN = 0) (he : s.srcEn = true)
    (ha : s.env.txc = answer :: rest) :
    fetchChar c s = some (loadPattern (answer.elim [] (pat c))
      ({ s with env := { s.env with txc := rest } }.send [.sourceCall s.cbctx answer])) := by
  rw [fetchChar, if_pos ⟨hn, he⟩, ha]
  cases answer <;> rfl

theorem fetchChar_place (c : Config) (p : BitVec 4) (k : Nat) (s : State) :
    fetchChar c (s.place p k) = (fetchChar c s).map (State.place p k) := by
  rcases fetchChar_cases c s with ⟨hn, h⟩ | ⟨hn, he, ha, h⟩ | ⟨answer, rest, hn, he, ha, h⟩
  · rw [h]
    exact fetchChar_of_not_asking c hn
  · rw [h]
    exact fetchChar_of_no_answer c hn he ha
  · rw [h, fetchChar_of_answer c (s := s.place p k) hn he ha, Option.map_some]
    exact congrArg some (loadPattern_place _ p k
      ({ s with env := { s.env with txc := rest } }.send [.sourceCall s.cbctx answer]))

/-- A slot's bit does not depend on SEQ and SLOT (R93). -/
theorem encodeSlot_commute_place (c : Config) (p : BitVec 4) (k : Nat) :
    Function.Commute (encodeSlot c) (State.place p k) := by
  intro s
  rw [encodeSlot, encodeSlot, fetchChar_place]
  cases fetchChar c s with
  | none => rfl
  | some s1 => exact emitBit_place p k s1

/-- With the source's next answer queued the fetch does not wait (R168). -/
theorem fetchChar_of_queued (c : Config) {s : State} (h : 1 ≤ s.env.txc.length) :
    ∃ s1, fetchChar c s = some s1 := by
  rcases fetchChar_cases c s with ⟨-, hf⟩ | ⟨-, -, ha, -⟩ | ⟨_, _, -, -, -, hf⟩
  · exact ⟨_, hf⟩
  · simp [ha] at h
  · exact ⟨_, hf⟩

theorem emitBit_env (s : State) : (emitBit s).env = s.env := by
  obtain ⟨_, _, _, h⟩ := emitBit_form s
  rw [h]

theorem loadPattern_env (bits : List Bit) (s : State) : (loadPattern bits s).env = s.env := by
  obtain ⟨_, _, _, h⟩ := loadPattern_form bits s
  rw [h]

/-- Of the outside, a slot changes the source's answers alone, and takes at most one. -/
theorem encodeSlot_env (c : Config) (s : State) :
    ∃ txc, (encodeSlot c s).env = { s.env with txc := txc }
      ∧ s.env.txc.length ≤ txc.length + 1 := by
  rw [encodeSlot]
  rcases fetchChar_cases c s with ⟨-, h⟩ | ⟨-, -, -, h⟩ | ⟨answer, rest, -, -, ha, h⟩ <;> rw [h]
  · exact ⟨s.env.txc, emitBit_env s, by omega⟩
  · exact ⟨s.env.txc, rfl, by omega⟩
  · exact ⟨rest, by rw [emitBit_env, loadPattern_env, State.send_env], by simp [ha]⟩

/-- A slot keeps SEQ and SLOT (R93). -/
theorem encodeSlot_sequencer (c : Config) (s : State) :
    (encodeSlot c s).seq = s.seq ∧ (encodeSlot c s).slot = s.slot := by
  have h : encodeSlot c s = (encodeSlot c s).place s.seq s.slot :=
    encodeSlot_commute_place c s.seq s.slot s
  exact ⟨(congrArg State.seq h :), (congrArg State.slot h :)⟩

/-- TENC on an answered slot: its bit, then the next slot or the end (R93). -/
theorem tenc_eq (c : Config) {s : State} (hs : s.slot < c.D * c.T) (ha : 1 ≤ s.env.txc.length) :
    tenc c s = if s.slot + 1 < c.D * c.T then (encodeSlot c s).place Phase.tenc (s.slot + 1)
      else endTxt (encodeSlot c s) := by
  obtain ⟨s1, hf⟩ := fetchChar_of_queued c ha
  have henc : encodeSlot c s = emitBit s1 := by rw [encodeSlot, hf]
  have hslot : (emitBit s1).slot = s.slot := henc ▸ (encodeSlot_sequencer c s).2
  rw [tenc, if_pos hs, hf, henc]
  dsimp only
  rw [hslot]
  rfl

/-- The end of `TXT` overwrites SEQ and SLOT, so they may be anything before. -/
theorem endTxt_iterate_place (c : Config) (p : BitVec 4) (k n : Nat) (s : State) :
    endTxt ((encodeSlot c)^[n] (s.place p k)) = endTxt ((encodeSlot c)^[n] s) := by
  rw [(encodeSlot_commute_place c p k).iterate_left n]
  rfl

/-- The end of a `TXT` begun in IDLE at slot 0 is its response (R86). -/
theorem endTxt_iterate_idle (c : Config) (n : Nat) {s : State} (hq : s.seq = Phase.idle)
    (hs : s.slot = 0) :
    endTxt ((encodeSlot c)^[n] s) = respond 0 ((encodeSlot c)^[n] s) := by
  have hplace : s.place Phase.idle 0 = s := by
    rw [← hq, ← hs]
    rfl
  calc endTxt ((encodeSlot c)^[n] s)
      = respond 0 (((encodeSlot c)^[n] s).place Phase.idle 0) := rfl
    _ = respond 0 ((encodeSlot c)^[n] (s.place Phase.idle 0)) := by
        rw [(encodeSlot_commute_place c Phase.idle 0).iterate_left n]
    _ = respond 0 ((encodeSlot c)^[n] s) := by rw [hplace]

/-- From slot `D*T - n` the steps of TENC run the `n` slots left and end the command (R86). -/
theorem reaches_endTxt (n : Nat) {s : State} (ho : EnvOpen s.env) (hq : s.seq = Phase.tenc)
    (hs : s.slot + n = Config.cfg.D * Config.cfg.T) (ha : n ≤ s.env.txc.length) :
    Reaches s (endTxt ((encodeSlot Config.cfg)^[n] s)) := by
  induction n generalizing s with
  | zero =>
    have hend : tenc Config.cfg s = endTxt s := by rw [tenc, if_neg (by omega)]
    exact hend ▸ reaches_of_exec (i := .tenc) ho (by rw [hq]; rfl) rfl
  | succ n ih =>
    have slotRun : Reaches s (tenc Config.cfg s) :=
      reaches_of_exec (i := .tenc) ho (by rw [hq]; rfl) rfl
    rw [tenc_eq _ (by omega) (by omega)] at slotRun
    rw [Function.iterate_succ_apply]
    split at slotRun
    · obtain ⟨txc, henv, hlen⟩ := encodeSlot_env Config.cfg s
      have hnext : ((encodeSlot Config.cfg s).place Phase.tenc (s.slot + 1)).env
          = { s.env with txc := txc } := henv
      refine slotRun.trans ?_
      rw [← endTxt_iterate_place _ Phase.tenc (s.slot + 1)]
      refine ih (hnext ▸ ho) rfl ?_ ?_
      · change s.slot + 1 + n = _
        omega
      · rw [hnext]
        change n ≤ txc.length
        omega
    · obtain rfl : n = 0 := by omega
      exact slotRun

/-- Settles O56: IDLE begins the loop at slot 0, TENC runs a slot a step, and neither SEQ nor SLOT
matters to what a slot does. -/
theorem txtRunsItsSlots : Obligations.TxtRunsItsSlots := by
  intro s rest hinv hq ho hcmd hans
  have hslot : s.slot = 0 :=
    hinv.slot_rest (by rw [hq]; decide) (by rw [hq]; decide)
  generalize hs1 : { s with env := { s.env with cmd := rest } } = s1
  have hs1q : s1.seq = Phase.idle := hs1 ▸ hq
  have hs1slot : s1.slot = 0 := hs1 ▸ hslot
  have begin : Reaches s (s1.place Phase.tenc 0) :=
    reaches_of_command ho hq hcmd (i := .txt) (by decide) (by rw [hs1]; rfl)
  have loop := reaches_endTxt (Config.cfg.D * Config.cfg.T) (s := s1.place Phase.tenc 0)
    (hs1 ▸ ho) rfl (Nat.zero_add _) (hs1 ▸ hans)
  rw [endTxt_iterate_place, endTxt_iterate_idle _ _ hs1q hs1slot] at loop
  exact begin.trans loop

end Sys2Proof.Machine
end

section
/-! ### RXF: GATE, the phases of an absorbed frame, ADV and VERD (R71, R85) -/

namespace Sys2Proof.Machine

open Sys2Proof.Claims

/-- The sequencer stands at phase `p` and slot 0, and the outside accepts everything. -/
structure ReadyAt (p : BitVec 4) (s : State) : Prop where
  seq_eq : s.seq = p
  slot_eq : s.slot = 0
  env_open : EnvOpen s.env

/-- A micro-operation that keeps SLOT and the outside leaves the sequencer at its next phase. -/
theorem ReadyAt.next {p q : BitVec 4} {s t : State} (h : ReadyAt p s) (hq : t.seq = q)
    (hslot : t.slot = s.slot) (henv : t.env = s.env) : ReadyAt q t :=
  ⟨hq, hslot.trans h.slot_eq, henv ▸ h.env_open⟩

theorem ReadyAt.reaches {p : BitVec 4} {s t : State} {i : Instr} (h : ReadyAt p s)
    (hi : decodePhase p = .ok i) (ht : exec i s = .next t) : Reaches s t :=
  reaches_of_exec h.env_open (h.seq_eq ▸ hi) ht

/-! #### The next phase of each micro-operation (R71) -/

theorem rxf_readyAt {phyGate phyPost : BitVec 2} {s : State} (h : ReadyAt Phase.idle s)
    (hlegal : ¬(phyGate = Phy.reserved ∨ phyPost = Phy.reserved)) :
    ReadyAt Phase.gate (rxf phyGate phyPost s) := by
  rw [rxf, if_neg hlegal]
  exact h.next rfl rfl rfl

/-- With all its items queued GATE takes them and branches at once (R101). -/
theorem gate_readyAt {c : Config} {s : State} (h : ReadyAt Phase.gate s)
    (hitems : s.lat.items = []) (hdin : neededItems c s.lat.gate ≤ s.env.din.length) :
    ReadyAt (if s.lat.gate = Phy.searching then Phase.adv else Phase.shap) (gate c s) := by
  have hlen : (takeItems c s).lat.items.length = neededItems c (takeItems c s).lat.gate := by
    simp [hitems, hdin]
  have hheaders : ¬(takeItems c s).lat.items.length < 2 := by
    have := neededItems_ge c (takeItems c s).lat.gate
    omega
  have hopen : EnvOpen (takeItems c s).env := h.env_open
  have hslot : (takeItems c s).slot = 0 := h.slot_eq
  change ReadyAt (if (takeItems c s).lat.gate = Phy.searching then _ else _) _
  rw [gate, if_neg hheaders]
  dsimp only
  split
  · exact ⟨rfl, hslot, hopen⟩
  · rw [if_neg (by omega)]
    exact ⟨rfl, hslot, hopen⟩

theorem shap_readyAt {c : Config} {s : State} (h : ReadyAt Phase.shap s) :
    ReadyAt Phase.isyn (shap c s) :=
  h.next rfl rfl rfl

theorem isyn_readyAt {c : Config} {s : State} (h : ReadyAt Phase.isyn s) :
    ReadyAt Phase.wchk (isyn c s) :=
  h.next rfl (congrArg State.slot (isyn_frame c s) :) (congrArg State.env (isyn_frame c s) :)

theorem wchk_readyAt_dsub {c : Config} {s : State} (h : ReadyAt Phase.wchk s)
    (hw : windowReady c s = true) :
    ReadyAt Phase.dsub (wchk c s) ∧ (wchk c s).subf = 0 := by
  rw [wchk, if_pos hw]
  exact ⟨h.next rfl rfl rfl, rfl⟩

theorem wchk_readyAt_tdec {c : Config} {s : State} (h : ReadyAt Phase.wchk s)
    (hw : ¬windowReady c s = true) : ReadyAt Phase.tdec (wchk c s) := by
  rw [wchk, if_neg hw]
  exact h.next rfl rfl rfl

theorem uwer_readyAt {c : Config} {s : State} (h : ReadyAt Phase.uwer s) :
    ReadyAt Phase.adv (uwer c s) :=
  h.next rfl rfl rfl

theorem adv_readyAt {s : State} (h : ReadyAt Phase.adv s) : ReadyAt Phase.verd (adv s) :=
  h.next rfl (congrArg State.slot (adv_frame s) :) (congrArg State.env (adv_frame s) :)

/-! #### The decode pass (R120) -/

/-- Where DSUB goes after sub-frame `SUBF`. -/
theorem dsub_next (c : Config) {s : State} (h : s.subf < c.D) :
    (s.subf + 1 < c.D → (dsub c s).seq = Phase.dsub ∧ (dsub c s).subf = s.subf + 1)
      ∧ (¬s.subf + 1 < c.D → (dsub c s).seq = Phase.tdec) := by
  have hsubf : (useDecoded c s.subf (payload c (fecDecode c s s.subf))
      (s.decodeSub c s.subf)).subf = s.subf :=
    (congrArg State.subf (useDecoded_frame c s.subf _ (s.decodeSub c s.subf)) :)
  rw [dsub, if_pos h, dsubAdvance, hsubf]
  exact ⟨fun hmore => by rw [if_pos hmore]; exact ⟨rfl, rfl⟩,
    fun hlast => by rw [if_neg hlast]; rfl⟩

/-- In the pass the sequencer is at DSUB with SUBF counting the sub-frames done. -/
theorem dsub_iterate_readyAt {c : Config} {s : State} (h : ReadyAt Phase.dsub s)
    (hsubf : s.subf = 0) (k : Nat) (hk : k < c.D) :
    ReadyAt Phase.dsub ((dsub c)^[k] s) ∧ ((dsub c)^[k] s).subf = k := by
  induction k with
  | zero => exact ⟨h, hsubf⟩
  | succ k ih =>
    obtain ⟨hready, hcount⟩ := ih (by omega)
    rw [Function.iterate_succ_apply']
    generalize (dsub c)^[k] s = u at hready hcount
    obtain ⟨hseq, hnext⟩ := (dsub_next c (s := u) (by omega)).1 (by omega)
    exact ⟨hready.next hseq (congrArg State.slot (dsub_frame c u) :)
      (congrArg State.env (dsub_frame c u) :), by omega⟩

/-- A whole decode pass: `D` steps of DSUB, and the text slots next. -/
theorem reaches_dsub_iterate {s : State} (h : ReadyAt Phase.dsub s) (hsubf : s.subf = 0) :
    Reaches s ((dsub Config.cfg)^[Config.cfg.D] s)
      ∧ ReadyAt Phase.tdec ((dsub Config.cfg)^[Config.cfg.D] s) := by
  have inPass := dsub_iterate_readyAt (c := Config.cfg) h hsubf
  refine ⟨.iterate _ fun k hk => (inPass k hk).1.reaches (i := .dsub) rfl rfl, ?_⟩
  obtain ⟨d, hd⟩ := Nat.exists_eq_add_one.mpr Config.cfg_wf.D_pos
  obtain ⟨hready, hcount⟩ := inPass d (by omega)
  rw [hd, Function.iterate_succ_apply']
  generalize (dsub Config.cfg)^[d] s = u at hready hcount
  exact hready.next ((dsub_next _ (by omega)).2 (by omega))
    (congrArg State.slot (dsub_frame _ u) :) (congrArg State.env (dsub_frame _ u) :)

/-! #### The text slots (R95) -/

/-- Where TDEC goes after slot `SLOT`. -/
theorem tdec_next (c : Config) {s : State} (h : s.slot < c.T) :
    (s.slot + 1 < c.T → (tdec c s).seq = Phase.tdec ∧ (tdec c s).slot = s.slot + 1)
      ∧ (¬s.slot + 1 < c.T → (tdec c s).seq = Phase.uwer ∧ (tdec c s).slot = 0) := by
  rw [tdec, if_pos h]
  exact ⟨fun hmore => by rw [if_pos hmore]; exact ⟨rfl, rfl⟩,
    fun hlast => by rw [if_neg hlast]; exact ⟨rfl, rfl⟩⟩

theorem tdec_env (c : Config) (s : State) : (tdec c s).env = s.env :=
  (congrArg State.env (tdec_frame c s) :)

/-- In the loop the sequencer is at TDEC with SLOT counting the slots done. -/
theorem tdec_iterate_position {c : Config} {s : State} (h : ReadyAt Phase.tdec s) (k : Nat)
    (hk : k < c.T) :
    ((tdec c)^[k] s).seq = Phase.tdec ∧ ((tdec c)^[k] s).slot = k
      ∧ EnvOpen ((tdec c)^[k] s).env := by
  induction k with
  | zero => exact ⟨h.seq_eq, h.slot_eq, h.env_open⟩
  | succ k ih =>
    obtain ⟨-, hslot, ho⟩ := ih (by omega)
    rw [Function.iterate_succ_apply']
    generalize (tdec c)^[k] s = u at hslot ho
    obtain ⟨hseq, hnext⟩ := (tdec_next c (s := u) (by omega)).1 (by omega)
    exact ⟨hseq, by omega, tdec_env c u ▸ ho⟩

/-- `T` steps of TDEC, with `T` at least 1, and UWER next. -/
theorem reaches_tdec_iterate {s : State} (h : ReadyAt Phase.tdec s) (hT : 0 < Config.cfg.T) :
    Reaches s ((tdec Config.cfg)^[Config.cfg.T] s)
      ∧ ReadyAt Phase.uwer ((tdec Config.cfg)^[Config.cfg.T] s) := by
  have inLoop := tdec_iterate_position (c := Config.cfg) h
  refine ⟨.iterate _ fun k hk => ?_, ?_⟩
  · obtain ⟨hseq, -, ho⟩ := inLoop k hk
    exact reaches_of_exec (i := .tdec) ho (by rw [hseq]; rfl) rfl
  · obtain ⟨d, hd⟩ := Nat.exists_eq_add_one.mpr hT
    obtain ⟨-, hslot, ho⟩ := inLoop d (by omega)
    rw [hd, Function.iterate_succ_apply']
    generalize (tdec Config.cfg)^[d] s = u at hslot ho
    obtain ⟨hseq, hnext⟩ := (tdec_next Config.cfg (s := u) (by omega)).2 (by omega)
    exact ⟨hseq, hnext, tdec_env _ u ▸ ho⟩

/-- The text slots and UWER. Without a slot TDEC is one step the pseudocode does not have (log 10);
it changes SEQ alone, which UWER overwrites. -/
theorem reaches_uwer {s : State} (h : ReadyAt Phase.tdec s) :
    Reaches s (uwer Config.cfg ((tdec Config.cfg)^[Config.cfg.T] s))
      ∧ ReadyAt Phase.adv (uwer Config.cfg ((tdec Config.cfg)^[Config.cfg.T] s)) := by
  by_cases hT : 0 < Config.cfg.T
  · obtain ⟨hreach, hready⟩ := reaches_tdec_iterate h hT
    exact ⟨hreach.trans (hready.reaches (i := .uwer) rfl rfl), uwer_readyAt hready⟩
  · have hT0 : Config.cfg.T = 0 := by omega
    have hskip : tdec Config.cfg s = s.goto Phase.uwer := by
      rw [tdec, if_neg (by omega), ← h.slot_eq]
    have hready : ReadyAt Phase.uwer (s.goto Phase.uwer) := h.next rfl rfl rfl
    have hwrite : uwer Config.cfg (s.goto Phase.uwer) = uwer Config.cfg s := rfl
    rw [hT0, Function.iterate_zero_apply, ← hwrite]
    exact ⟨(h.reaches (i := .tdec) rfl (hskip ▸ rfl)).trans (hready.reaches (i := .uwer) rfl rfl),
      uwer_readyAt hready⟩

/-! #### The whole command -/

/-- SHAP to UWER are the part of the pseudocode for a demodulated frame (R85). -/
theorem reaches_absorbFrame {s : State} (h : ReadyAt Phase.shap s) :
    Reaches s (absorbFrame Config.cfg s) ∧ ReadyAt Phase.adv (absorbFrame Config.cfg s) := by
  have hshap := shap_readyAt (c := Config.cfg) h
  have hisyn := isyn_readyAt (c := Config.cfg) hshap
  have front : Reaches s (wchk Config.cfg (isyn Config.cfg (shap Config.cfg s))) :=
    ((h.reaches (i := .shap) rfl rfl).trans (hshap.reaches (i := .isyn) rfl rfl)).trans
      (hisyn.reaches (i := .wchk) rfl rfl)
  rw [absorbFrame]
  split
  · rename_i hw
    obtain ⟨hwchk, hsubf⟩ := wchk_readyAt_dsub hisyn hw
    obtain ⟨pass, hpass⟩ := reaches_dsub_iterate hwchk hsubf
    obtain ⟨text, htext⟩ := reaches_uwer hpass
    exact ⟨(front.trans pass).trans text, htext⟩
  · rename_i hw
    obtain ⟨text, htext⟩ := reaches_uwer (wchk_readyAt_tdec hisyn hw)
    exact ⟨front.trans text, htext⟩

theorem reaches_verd {s : State} (h : ReadyAt Phase.adv s) :
    Reaches s (verd Config.cfg (adv s)) :=
  (h.reaches (i := .adv) rfl rfl).trans ((adv_readyAt h).reaches (i := .verd) rfl rfl)

/-- From IDLE, with its operands accepted and all its items queued, an `RXF` runs to its end. -/
theorem reaches_receiveCall {phyGate phyPost : BitVec 2} {s : State} (h : ReadyAt Phase.idle s)
    (hlegal : ¬(phyGate = Phy.reserved ∨ phyPost = Phy.reserved))
    (hdin : neededItems Config.cfg phyGate ≤ s.env.din.length) :
    Reaches (rxf phyGate phyPost s) (receiveCall Config.cfg phyGate phyPost s) := by
  have hrxf := rxf_readyAt h hlegal
  have hlatch : (rxf phyGate phyPost s).lat = { gate := phyGate, post := phyPost, items := [] }
      ∧ (rxf phyGate phyPost s).env = s.env := by
    rw [rxf, if_neg hlegal]
    exact ⟨rfl, rfl⟩
  obtain ⟨hlat, henv⟩ := hlatch
  have hgate := gate_readyAt (c := Config.cfg) hrxf (by rw [hlat]) (by rw [hlat, henv]; exact hdin)
  have taken := hrxf.reaches (i := .gate) rfl rfl
  rw [hlat] at hgate
  rw [receiveCall, if_neg hlegal]
  dsimp only at hgate ⊢
  split at hgate
  · rw [if_pos ‹_›]
    exact taken.trans (reaches_verd hgate)
  · rw [if_neg ‹_›]
    obtain ⟨frame, hframe⟩ := reaches_absorbFrame hgate
    exact (taken.trans frame).trans (reaches_verd hframe)

/-- Settles O55: IDLE begins the micro-program or raises the operand error in place, and the steps
of its phases, loops included, are the lines of the pseudocode. -/
theorem rxfRunsItsMicroProgram : Obligations.RxfRunsItsMicroProgram := by
  intro s rest phyGate phyPost w hinv hq ho henc hcmd hdin
  have hslot : s.slot = 0 :=
    hinv.slot_rest (by rw [hq]; decide) (by rw [hq]; decide)
  have begin := reaches_of_command ho hq hcmd (decodeCommand_of_encode_rxf henc)
    (t := rxf phyGate phyPost { s with env := { s.env with cmd := rest } }) rfl
  by_cases hlegal : phyGate = Phy.reserved ∨ phyPost = Phy.reserved
  · rw [rxf, if_pos hlegal] at begin
    rwa [receiveCall, if_pos hlegal]
  · exact begin.trans (reaches_receiveCall ⟨hq, hslot, ho⟩ hlegal hdin)

end Sys2Proof.Machine
end

/-! ## The state: reset, the invariant, and who writes each register (spec/10_state.md) -/

section
/-! ### The reset values (R35) -/

namespace Sys2Proof.Machine

open Sys2Proof.Claims

/-- Reset gives every register and storage space its value of R35, whatever the outside and the
trace. -/
theorem resetValues_resetOn (c : Config) (e : Env) (tr : List Event) :
    ResetValues c { State.resetOn c with env := e, trace := tr } where
  window := ⟨List.length_replicate, List.length_replicate, fun _ h =>
    ⟨List.getElem?_replicate_of_lt h, List.getElem?_replicate_of_lt h⟩⟩
  sync := ⟨rfl, rfl⟩
  encoder := ⟨List.length_replicate, fun _ => List.eq_of_mem_replicate, rfl, rfl⟩
  decoder := ⟨rfl, rfl⟩
  counters := ⟨rfl, rfl, rfl, rfl⟩
  outbuf := ⟨List.length_replicate, fun _ => List.eq_of_mem_replicate⟩
  results := ⟨rfl, rfl, rfl, rfl, rfl, rfl⟩
  error := rfl
  control := ⟨rfl, rfl, rfl, rfl⟩
  sequencer := ⟨rfl, rfl, rfl, rfl⟩

end Sys2Proof.Machine
end

section
/-! ### The first error code sticks in ERR (R26, R141) -/

namespace Sys2Proof.Machine

/-- ERR is kept, or takes its first code (R141). -/
def ErrRecorded (s t : State) : Prop := t.err = s.err ∨ s.err = 0 ∧ ∃ e, t.err = errorCode e

theorem raiseError_errRecorded (e : HostError) (s : State) : ErrRecorded s (raiseError e s) := by
  rw [ErrRecorded, raiseError_err]
  split
  · exact .inr ⟨‹_›, e, rfl⟩
  · exact .inl rfl

theorem csrw_errRecorded (csr : BitVec 8) (value : BitVec 16) (s : State) :
    ErrRecorded s (csrw csr value s) := by
  rw [csrw]
  rcases csrWritten_cases s csr value with ⟨-, hw⟩ | ⟨-, hw⟩ | ⟨-, hw⟩ | ⟨-, hw⟩ | ⟨-, hw⟩ <;>
    rw [hw]
  · exact .inl rfl
  · exact .inl rfl
  · exact .inl rfl
  · exact .inl rfl
  · exact raiseError_errRecorded _ _

theorem csrr_errRecorded (csr : BitVec 8) (s : State) : ErrRecorded s (csrr csr s) := by
  rw [csrr]
  split
  · exact .inl rfl
  · exact raiseError_errRecorded _ _

theorem rdb_errRecorded (c : Config) (index : BitVec 16) (s : State) :
    ErrRecorded s (rdb c index s) := by
  rw [rdb]
  split
  · exact raiseError_errRecorded _ _
  · exact .inl rfl

theorem rxf_errRecorded (phyGate phyPost : BitVec 2) (s : State) :
    ErrRecorded s (rxf phyGate phyPost s) := by
  rw [rxf]
  split
  · exact raiseError_errRecorded _ _
  · exact .inl rfl

end Sys2Proof.Machine
end

section
/-! ### The invariant, phase by phase (R29, R71) -/

namespace Sys2Proof.Machine

/-- The phase-dependent part of the invariant: what the sequencer registers, the latch and the sync
state are in each phase. -/
structure Sequenced (c : Config) (s : State) : Prop where
  full_only_in_wchk : s.ilvSynced = true → s.fci = c.D → s.seq = Phase.wchk
  seq_legal : s.seq.toNat ≤ 0xA
  subf_range : s.seq = Phase.dsub → s.subf < c.D
  subf_rest : s.seq ≠ Phase.dsub → s.subf = 0
  slot_tdec : s.seq = Phase.tdec → s.slot = 0 ∨ s.slot < c.T
  slot_tenc : s.seq = Phase.tenc → s.slot = 0 ∨ s.slot < c.D * c.T
  slot_rest : s.seq ≠ Phase.tdec → s.seq ≠ Phase.tenc → s.slot = 0
  latch_idle : s.seq = Phase.idle ∨ s.seq = Phase.tenc → s.lat = Latch.empty
  items_gate : s.seq = Phase.gate → s.lat.items.length < neededItems c s.lat.gate
  items_taken : frameInHand s.seq ∨ s.seq = Phase.adv ∨ s.seq = Phase.verd →
    s.lat.items.length = neededItems c s.lat.gate
  frame_gate : frameInHand s.seq → s.lat.gate ≠ Phy.searching
  decode_pass : s.seq = Phase.dsub → s.ilvSynced = true ∧ s.fci = 0 ∧ s.decoded = true

/-- Synchronised with a full count: what R111 excludes everywhere but in WCHK. -/
def SyncedFull (c : Config) (s : State) : Prop := s.ilvSynced = true ∧ s.fci = c.D

theorem Inv.not_syncedFull {c : Config} {s : State} (h : Inv c s) (hq : s.seq ≠ Phase.wchk) :
    ¬SyncedFull c s := fun ⟨hs, hf⟩ => hq (h.full_only_in_wchk hs hf)

/-! In one phase each clause of `Sequenced` is a hypothesis of that phase's lemma or does not
apply. -/

/-- Between two commands. -/
theorem sequenced_idle {c : Config} {s : State} (hq : s.seq = Phase.idle)
    (hfull : ¬SyncedFull c s) (hsubf : s.subf = 0) (hslot : s.slot = 0)
    (hlat : s.lat = Latch.empty) : Sequenced c s := by
  constructor <;> simp_all [SyncedFull, frameInHand]

/-- In the loop of a TXT. -/
theorem sequenced_tenc {c : Config} {s : State} (hq : s.seq = Phase.tenc)
    (hfull : ¬SyncedFull c s) (hsubf : s.subf = 0) (hslot : s.slot = 0 ∨ s.slot < c.D * c.T)
    (hlat : s.lat = Latch.empty) : Sequenced c s := by
  constructor <;> simp_all [SyncedFull, frameInHand]

/-- While GATE takes items. -/
theorem sequenced_gate {c : Config} {s : State} (hq : s.seq = Phase.gate)
    (hfull : ¬SyncedFull c s) (hsubf : s.subf = 0) (hslot : s.slot = 0)
    (hitems : s.lat.items.length < neededItems c s.lat.gate) : Sequenced c s := by
  constructor <;> simp_all [SyncedFull, frameInHand]

/-- The latch holds all the items of an absorbed frame (R67, R101). -/
def FrameHeld (c : Config) (s : State) : Prop :=
  s.lat.items.length = neededItems c s.lat.gate ∧ s.lat.gate ≠ Phy.searching

theorem FrameHeld.items_length {c : Config} {s : State} (h : FrameHeld c s) :
    s.lat.items.length = 3 + c.U + 2 * c.S + c.T := by
  obtain ⟨hitems, hgate⟩ := h
  rw [hitems, neededItems, if_neg hgate]

theorem Inv.frameHeld {c : Config} {s : State} (h : Inv c s) (hq : frameInHand s.seq) :
    FrameHeld c s := ⟨h.items_taken (.inl hq), h.frame_gate hq⟩

theorem FrameHeld.congr {c : Config} {s t : State} (h : FrameHeld c s) (hlat : t.lat = s.lat) :
    FrameHeld c t := by
  rwa [FrameHeld, hlat]

/-- From SHAP to UWER, the decode pass apart. -/
theorem sequenced_frame {c : Config} {s : State} (hq : frameInHand s.seq)
    (hpass : s.seq ≠ Phase.dsub) (hfull : s.seq ≠ Phase.wchk → ¬SyncedFull c s)
    (hsubf : s.subf = 0) (hslot : s.slot = 0 ∨ s.seq = Phase.tdec ∧ s.slot < c.T)
    (hframe : FrameHeld c s) : Sequenced c s := by
  obtain ⟨hitems, hgate⟩ := hframe
  rcases hq with hq | hq | hq | hq | hq | hq <;> constructor <;>
    simp_all [SyncedFull, frameInHand]

/-- In a decode pass (R113, R120). -/
theorem sequenced_dsub {c : Config} (hc : c.WF) {s : State} (hq : s.seq = Phase.dsub)
    (hpass : s.ilvSynced = true ∧ s.fci = 0 ∧ s.decoded = true) (hsubf : s.subf < c.D)
    (hslot : s.slot = 0) (hframe : FrameHeld c s) : Sequenced c s := by
  obtain ⟨hitems, hgate⟩ := hframe
  have := hc.D_pos
  constructor <;> simp_all [frameInHand]
  omega

/-- At the end of an RXF. -/
theorem sequenced_end {c : Config} {s : State} (hq : s.seq = Phase.adv ∨ s.seq = Phase.verd)
    (hfull : ¬SyncedFull c s) (hsubf : s.subf = 0) (hslot : s.slot = 0)
    (hitems : s.lat.items.length = neededItems c s.lat.gate) : Sequenced c s := by
  rcases hq with hq | hq <;> constructor <;> simp_all [SyncedFull, frameInHand]

/-- With a frame of `Laws/Frames.lean`: the new state, its written fields put back, is good. -/
theorem Inv.of_frame {c : Config} {s t : State} (h : Inv c s) (ht : t = s) : Inv c t := ht ▸ h

/-- Codes 4 to 15 are never produced (R140). -/
theorem Inv.err_range_of {c : Config} {s t : State} (h : Inv c s) (ht : ErrRecorded s t) :
    t.err.toNat ≤ 3 := by
  rcases ht with ht | ⟨-, e, ht⟩ <;> rw [ht]
  · exact h.err_range
  · exact (errorCode_range e).2

end Sys2Proof.Machine
end

section
/-! ### Every micro-operation keeps the invariant -/

namespace Sys2Proof.Machine

variable {c : Config} {s : State}

/-! #### Host commands -/

theorem respond_keeps_inv (h : Inv c s) (w : Word) : Inv c (respond w s) := { h with }

theorem raiseError_keeps_inv (h : Inv c s) (e : HostError) : Inv c (raiseError e s) :=
  { h with err_range := h.err_range_of (raiseError_errRecorded e s) }

theorem csrw_keeps_inv (h : Inv c s) (csr : BitVec 8) (value : BitVec 16) :
    Inv c (csrw csr value s) :=
  { h.of_frame (csrw_frame csr value s) with
    err_range := h.err_range_of (csrw_errRecorded csr value s) }

theorem csrr_keeps_inv (h : Inv c s) (csr : BitVec 8) : Inv c (csrr csr s) :=
  { h.of_frame (csrr_frame csr s) with err_range := h.err_range_of (csrr_errRecorded csr s) }

theorem rdb_keeps_inv (h : Inv c s) (index : BitVec 16) : Inv c (rdb c index s) :=
  { h.of_frame (rdb_frame c index s) with err_range := h.err_range_of (rdb_errRecorded c index s) }

theorem Inv.slot_of_idle (h : Inv c s) (hq : s.seq = Phase.idle) : s.slot = 0 :=
  h.slot_rest (by simp [hq]) (by simp [hq])

theorem rxf_keeps_inv (h : Inv c s) (hq : s.seq = Phase.idle) (phyGate phyPost : BitVec 2) :
    Inv c (rxf phyGate phyPost s) := by
  rw [rxf]
  split
  · exact raiseError_keeps_inv h _
  · rename_i hlegal
    have begun : Sequenced c
        ({ s with lat := { gate := phyGate, post := phyPost, items := [] } }.goto Phase.gate) :=
      sequenced_gate rfl (h.not_syncedFull (by simp [hq])) (h.subf_rest (by simp [hq]))
        (h.slot_of_idle hq) (Nat.lt_of_lt_of_le Nat.two_pos (neededItems_ge c phyGate))
    exact { begun, h with latch_legal := not_or.1 hlegal }

theorem beginTxt_keeps_inv (h : Inv c s) (hq : s.seq = Phase.idle) :
    Inv c ({ s with slot := 0 }.goto Phase.tenc) := by
  have begun : Sequenced c ({ s with slot := 0 }.goto Phase.tenc) :=
    sequenced_tenc rfl (h.not_syncedFull (by simp [hq])) (h.subf_rest (by simp [hq])) (.inl rfl)
      (h.latch_idle (.inl hq))
  exact { begun, h with }

theorem latch_empty_legal :
    Latch.empty.gate ≠ Phy.reserved ∧ Latch.empty.post ≠ Phy.reserved := by decide

/-- The state right after reset is good, whatever the outside and the trace. -/
theorem inv_resetOn (c : Config) (e : Env) (tr : List Event) :
    Inv c { State.resetOn c with env := e, trace := tr } := by
  have start : Sequenced c { State.resetOn c with env := e, trace := tr } :=
    sequenced_idle rfl (fun h => Bool.noConfusion h.1) rfl rfl rfl
  exact { start with
    memory := memory_reset c e tr
    fci_range := Nat.zero_le _
    tx_bits := List.length_replicate
    tx_idx := Nat.zero_le _
    tx_n := Nat.zero_le _
    tx_pattern := fun h => absurd h (Nat.lt_irrefl 0)
    rx_idle := fun _ => rfl
    rx_inside := fun h => Bool.noConfusion h
    pcc_range := Nat.zero_le _
    iter_range := Nat.zero_le _
    err_range := Nat.zero_le _
    phy_legal := (by decide : Phy.searching ≠ Phy.reserved)
    latch_legal := latch_empty_legal }

theorem CommandDone.keeps_inv {w : Word} {t : State} (ht : CommandDone c w s t) (h : Inv c s)
    (hq : s.seq = Phase.idle) : Inv c t := by
  cases ht with
  | illegal => exact raiseError_keeps_inv h _
  | nop => exact respond_keeps_inv h _
  | srst => exact respond_keeps_inv (inv_resetOn c _ _) _
  | csrw => exact csrw_keeps_inv h _ _
  | csrr => exact csrr_keeps_inv h _
  | rdb => exact rdb_keeps_inv h _
  | rxf => exact rxf_keeps_inv h hq _ _
  | txt => exact beginTxt_keeps_inv h hq

/-! #### The phases of an RXF -/

/-- GATE never takes more items than the RXF has (R67). -/
theorem takeItems_length_le (h : s.lat.items.length ≤ neededItems c s.lat.gate) :
    (takeItems c s).lat.items.length ≤ neededItems c (takeItems c s).lat.gate := by
  simp only [takeItems_lat, List.length_append, List.length_take]
  omega

theorem gate_keeps_inv (h : Inv c s) (hq : s.seq = Phase.gate) : Inv c (gate c s) := by
  have hfull : ¬SyncedFull c s := h.not_syncedFull (by simp [hq])
  have hsubf : s.subf = 0 := h.subf_rest (by simp [hq])
  have hslot : s.slot = 0 := h.slot_rest (by simp [hq]) (by simp [hq])
  have htaken := takeItems_length_le (h.items_gate hq).le
  have hneed := neededItems_ge c (takeItems c s).lat.gate
  rw [gate]
  dsimp only
  split
  · have waits : Sequenced c (takeItems c s) :=
      sequenced_gate hq hfull hsubf hslot (by omega)
    exact { waits, h with }
  · split
    · rename_i hheaders hsearch
      have hall : (takeItems c s).lat.items.length = neededItems c (takeItems c s).lat.gate := by
        have : neededItems c (takeItems c s).lat.gate = 2 := if_pos hsearch
        omega
      have skips : Sequenced c
          ({ takeItems c s with uwerr := 0, decoded := false }.dropSync.goto Phase.adv) :=
        sequenced_end (.inl rfl) (fun hf => Bool.noConfusion hf.1) hsubf hslot hall
      exact { skips, h with
        fci_range := Nat.zero_le _, pcc_range := Nat.zero_le _, iter_range := Nat.zero_le _ }
    · split
      · have waits : Sequenced c { takeItems c s with uwerr := 0, decoded := false } :=
          sequenced_gate hq hfull hsubf hslot ‹_›
        exact { waits, h with }
      · rename_i hsearch hall
        have begins : Sequenced c
            ({ takeItems c s with uwerr := 0, decoded := false }.goto Phase.shap) :=
          sequenced_frame (.inl rfl) (by simp) (fun _ => hfull) hsubf (.inl hslot)
            ⟨Nat.le_antisymm htaken (Nat.not_lt.1 hall), hsearch⟩
        exact { begins, h with }

theorem shap_keeps_inv (hc : c.WF) (h : Inv c s) (hq : s.seq = Phase.shap) : Inv c (shap c s) := by
  have hslot : s.slot = 0 := h.slot_rest (by simp [hq]) (by simp [hq])
  have hframe := h.frameHeld (.inl hq)
  have moved : Sequenced c (shap c s) :=
    sequenced_frame (.inr (.inl rfl)) (by simp [shap]) (fun _ => h.not_syncedFull (by simp [hq]))
      (h.subf_rest (by simp [hq])) (.inl hslot) hframe
  exact { moved, h with memory := memory_shap hc h.memory hframe.items_length }

/-- What ISYN leaves in FCI, PCC and ITER fits them (R17, R24, R112). -/
theorem isyn_ranges (hc : c.WF) (h : Inv c s) :
    (isyn c s).fci ≤ c.D ∧ (isyn c s).pcc.toNat ≤ c.NPCHK ∧ (isyn c s).iter.toNat ≤ c.ITER_MAX := by
  have hfci : min (s.fci + 1) c.D ≤ c.D := Nat.min_le_right _ _
  rw [isyn]
  dsimp only
  split
  · obtain ⟨hpcc, hiter, hp, hi⟩ := decodeSub_counts hc { s with fci := min (s.fci + 1) c.D } 0
    exact ⟨hfci, hpcc.trans_le hp, hiter.trans_le hi⟩
  · exact ⟨hfci, h.pcc_range, h.iter_range⟩

theorem isyn_keeps_inv (hc : c.WF) (h : Inv c s) (hq : s.seq = Phase.isyn) : Inv c (isyn c s) := by
  have hsubf : (isyn c s).subf = s.subf := (congrArg State.subf (isyn_frame c s) :)
  have hslot : (isyn c s).slot = s.slot := (congrArg State.slot (isyn_frame c s) :)
  have hlat : (isyn c s).lat = s.lat := (congrArg State.lat (isyn_frame c s) :)
  have moved : Sequenced c (isyn c s) :=
    sequenced_frame (.inr (.inr (.inl rfl))) (by simp [isyn]) (fun hne => absurd rfl hne)
      (hsubf.trans (h.subf_rest (by simp [hq])))
      (.inl (hslot.trans (h.slot_rest (by simp [hq]) (by simp [hq]))))
      ((h.frameHeld (.inr (.inl hq))).congr hlat)
  obtain ⟨fci_range, pcc_range, iter_range⟩ := isyn_ranges hc h
  exact { moved, h.of_frame (isyn_frame c s) with fci_range, pcc_range, iter_range }

theorem wchk_keeps_inv (hc : c.WF) (h : Inv c s) (hq : s.seq = Phase.wchk) : Inv c (wchk c s) := by
  have hslot : s.slot = 0 := h.slot_rest (by simp [hq]) (by simp [hq])
  have hframe := h.frameHeld (.inr (.inr (.inl hq)))
  rw [wchk]
  split
  · rename_i hready
    have hsync : s.ilvSynced = true := ((Bool.and_eq_true _ _).mp hready).1
    have pass : Sequenced c ({ s with fci := 0, decoded := true, subf := 0 }.goto Phase.dsub) :=
      sequenced_dsub hc rfl ⟨hsync, rfl, rfl⟩ hc.D_pos hslot hframe
    exact { pass, h with fci_range := Nat.zero_le _ }
  · rename_i hready
    have hfull : ¬SyncedFull c s := fun hf => hready (by simpa [windowReady, SyncedFull] using hf)
    have skips : Sequenced c (s.goto Phase.tdec) :=
      sequenced_frame (.inr (.inr (.inr (.inr (.inl rfl))))) (by simp) (fun _ => hfull)
        (h.subf_rest (by simp [hq])) (.inl hslot) hframe
    exact { skips, h with }

/-- What DSUB leaves in PCC and ITER fits them (R24, R120). -/
theorem dsub_ranges (hc : c.WF) (hsubf : s.subf < c.D) :
    (dsub c s).pcc.toNat ≤ c.NPCHK ∧ (dsub c s).iter.toNat ≤ c.ITER_MAX := by
  have hframe := useDecoded_frame c s.subf (payload c (fecDecode c s s.subf)) (s.decodeSub c s.subf)
  have keep_pcc := (congrArg State.pcc hframe :)
  have keep_iter := (congrArg State.iter hframe :)
  obtain ⟨hpcc, hiter, hp, hi⟩ := decodeSub_counts hc s s.subf
  rw [← keep_pcc] at hpcc
  rw [← keep_iter] at hiter
  rw [dsub, if_pos hsubf, dsubAdvance]
  split <;> exact ⟨hpcc.trans_le hp, hiter.trans_le hi⟩

/-- After the last sub-frame the pass is over (R120). -/
theorem dsub_last (hsubf : s.subf < c.D) (hlast : ¬s.subf + 1 < c.D) :
    (dsub c s).seq = Phase.tdec ∧ (dsub c s).subf = 0 := by
  have hkept : (useDecoded c s.subf (payload c (fecDecode c s s.subf))
      (s.decodeSub c s.subf)).subf = s.subf :=
    (congrArg State.subf (useDecoded_frame c s.subf _ (s.decodeSub c s.subf)) :)
  rw [dsub, if_pos hsubf, dsubAdvance, hkept, if_neg hlast]
  exact ⟨rfl, rfl⟩

theorem dsub_keeps_inv (hc : c.WF) (h : Inv c s) (hq : s.seq = Phase.dsub) : Inv c (dsub c s) := by
  obtain ⟨hsync, hfci, hdecoded⟩ := h.decode_pass hq
  have hsubf := h.subf_range hq
  have keep_sync : (dsub c s).ilvSynced = s.ilvSynced :=
    (congrArg State.ilvSynced (dsub_frame c s) :)
  have keep_fci : (dsub c s).fci = s.fci := (congrArg State.fci (dsub_frame c s) :)
  have keep_decoded : (dsub c s).decoded = s.decoded := (congrArg State.decoded (dsub_frame c s) :)
  have keep_slot : (dsub c s).slot = s.slot := (congrArg State.slot (dsub_frame c s) :)
  have keep_lat : (dsub c s).lat = s.lat := (congrArg State.lat (dsub_frame c s) :)
  have hslot := keep_slot.trans (h.slot_rest (by simp [hq]) (by simp [hq]))
  have hframe := (h.frameHeld (.inr (.inr (.inr (.inl hq))))).congr keep_lat
  have moved : Sequenced c (dsub c s) := by
    by_cases hmore : s.subf + 1 < c.D
    · obtain ⟨hseq, hnext⟩ := (dsub_next c hsubf).1 hmore
      exact sequenced_dsub hc hseq
        ⟨keep_sync.trans hsync, keep_fci.trans hfci, keep_decoded.trans hdecoded⟩ (hnext ▸ hmore)
        hslot hframe
    · obtain ⟨hseq, hdone⟩ := dsub_last hsubf hmore
      have hfull : ¬SyncedFull c (dsub c s) := fun ⟨_, hf⟩ => by
        have := hc.D_pos
        omega
      exact sequenced_frame (.inr (.inr (.inr (.inr (.inl hseq))))) (by simp [hseq])
        (fun _ => hfull) hdone (.inl hslot) hframe
  obtain ⟨pcc_range, iter_range⟩ := dsub_ranges hc hsubf
  exact { moved, h.of_frame (dsub_frame c s) with
    memory := memory_dsub h.memory, pcc_range, iter_range }

/-- TDEC runs the decoder step, or without a slot keeps the decoder; R19 holds after both. -/
theorem tdec_decoder (h : Inv c s) :
    ((tdec c s).rxIn = false → (tdec c s).rxCode = [])
      ∧ ((tdec c s).rxIn = true → (tdec c s).rxCode.head? = some true
        ∧ (tdec c s).rxCode.length < c.TXT_CODE_MAX + 2) := by
  have inside := decStep_inside c s.rxIn s.rxCode (slotBit c s s.slot)
    fun hin => (h.rx_inside hin).1
  rw [tdec]
  dsimp only
  split
  · split <;> exact inside
  · exact ⟨h.rx_idle, h.rx_inside⟩

/-- TDEC goes to a next slot that is there, or to UWER at slot 0 (R71, R95). -/
theorem tdec_position (c : Config) (s : State) :
    (tdec c s).seq = Phase.tdec ∧ (tdec c s).slot < c.T
      ∨ (tdec c s).seq = Phase.uwer ∧ (tdec c s).slot = 0 := by
  rw [tdec]
  dsimp only
  split
  · split
    · exact .inl ⟨rfl, ‹_›⟩
    · exact .inr ⟨rfl, rfl⟩
  · exact .inr ⟨rfl, rfl⟩

theorem tdec_keeps_inv (h : Inv c s) (hq : s.seq = Phase.tdec) : Inv c (tdec c s) := by
  have keep_sync : (tdec c s).ilvSynced = s.ilvSynced :=
    (congrArg State.ilvSynced (tdec_frame c s) :)
  have keep_fci : (tdec c s).fci = s.fci := (congrArg State.fci (tdec_frame c s) :)
  have keep_subf : (tdec c s).subf = s.subf := (congrArg State.subf (tdec_frame c s) :)
  have keep_lat : (tdec c s).lat = s.lat := (congrArg State.lat (tdec_frame c s) :)
  have hfull : ¬SyncedFull c (tdec c s) := by
    rw [SyncedFull, keep_sync, keep_fci]
    exact h.not_syncedFull (by simp [hq])
  have hsubf := keep_subf.trans (h.subf_rest (by simp [hq]))
  have hframe := (h.frameHeld (.inr (.inr (.inr (.inr (.inl hq)))))).congr keep_lat
  have moved : Sequenced c (tdec c s) := by
    rcases tdec_position c s with ⟨hseq, hslot⟩ | ⟨hseq, hslot⟩
    · exact sequenced_frame (.inr (.inr (.inr (.inr (.inl hseq))))) (by simp [hseq])
        (fun _ => hfull) hsubf (.inr ⟨hseq, hslot⟩) hframe
    · exact sequenced_frame (.inr (.inr (.inr (.inr (.inr hseq))))) (by simp [hseq])
        (fun _ => hfull) hsubf (.inl hslot) hframe
  obtain ⟨rx_idle, rx_inside⟩ := tdec_decoder h
  exact { moved, h.of_frame (tdec_frame c s) with rx_idle, rx_inside }

theorem uwer_keeps_inv (h : Inv c s) (hq : s.seq = Phase.uwer) : Inv c (uwer c s) := by
  have hheld : frameInHand s.seq := .inr (.inr (.inr (.inr (.inr hq))))
  have moved : Sequenced c (uwer c s) :=
    sequenced_end (.inl rfl) (h.not_syncedFull (by simp [hq])) (h.subf_rest (by simp [hq]))
      (h.slot_rest (by simp [hq]) (by simp [hq])) (h.items_taken (.inl hheld))
  exact { moved, h with }

theorem adv_keeps_inv (h : Inv c s) (hq : s.seq = Phase.adv) : Inv c (adv s) := by
  have hsubf : s.subf = 0 := h.subf_rest (by simp [hq])
  have hslot : s.slot = 0 := h.slot_rest (by simp [hq]) (by simp [hq])
  have hitems := h.items_taken (.inr (.inl hq))
  obtain ⟨-, hpost⟩ := h.latch_legal
  rw [adv]
  split
  · have moved : Sequenced c
        ({ s with phy := s.lat.post, nin := inNinNext s }.dropSync.goto Phase.verd) :=
      sequenced_end (.inr rfl) (fun hf => Bool.noConfusion hf.1) hsubf hslot hitems
    exact { moved, h with
      phy_legal := hpost
      fci_range := Nat.zero_le _, pcc_range := Nat.zero_le _, iter_range := Nat.zero_le _ }
  · have moved : Sequenced c ({ s with phy := s.lat.post, nin := inNinNext s }.goto Phase.verd) :=
      sequenced_end (.inr rfl) (h.not_syncedFull (by simp [hq])) hsubf hslot hitems
    exact { moved, h with phy_legal := hpost }

theorem verd_keeps_inv (h : Inv c s) (hq : s.seq = Phase.verd) : Inv c (verd c s) := by
  have moved : Sequenced c (verd c s) :=
    sequenced_idle rfl (h.not_syncedFull (by simp [hq])) (h.subf_rest (by simp [hq]))
      (h.slot_rest (by simp [hq]) (by simp [hq])) rfl
  exact { moved, h with latch_legal := latch_empty_legal }

/-! #### TENC -/

/-- A pattern fits TX_BITS (R18, R90, R91). -/
theorem pat_length_le (hc : c.WF) (ch : Char8) : (pat c ch).length ≤ c.TXT_CODE_MAX + 2 := by
  rw [pat]
  split
  · rename_i w hw
    have hcode := hc.table_codewords _ (lookup_mem hw)
    simp only [isCodeword, Bool.and_eq_true, decide_eq_true_eq] at hcode
    obtain ⟨⟨⟨⟨-, hlen⟩, -⟩, -⟩, -⟩ := hcode
    simpa using hlen
  · exact Nat.zero_le _

theorem loadPattern_keeps_inv (hc : c.WF) (h : Inv c s) (ch : Char8) :
    Inv c (loadPattern (pat c ch) s) := by
  have hfit := pat_length_le hc ch
  rw [loadPattern]
  split
  · exact h
  · exact { h with
      tx_bits := by
        simp only [List.length_append, List.length_drop, h.tx_bits]
        omega
      tx_idx := Nat.zero_le _
      tx_n := hfit
      tx_pattern := fun _ => ⟨ch, by simp⟩ }

theorem emitBit_keeps_inv (hc : c.WF) (h : Inv c s) : Inv c (emitBit s) := by
  rw [emitBit]
  split
  · exact { h with }
  · have hpos : 0 < s.txN := Nat.pos_of_ne_zero ‹_›
    obtain ⟨ch, hlen, hbits⟩ := h.tx_pattern hpos
    have hfit := pat_length_le hc ch
    have hn := h.tx_n
    have hsum : s.txIdx + 1 + (s.txN - 1) = s.txIdx + s.txN := by omega
    have tx_idx : s.txIdx + 1 ≤ c.TXT_CODE_MAX + 2 := by omega
    have tx_n : s.txN - 1 ≤ c.TXT_CODE_MAX + 2 := by omega
    exact { h with
      tx_idx, tx_n
      tx_pattern := fun _ => ⟨ch, hlen.trans hsum.symm, hsum ▸ hbits⟩ }

theorem encodeSlot_keeps_inv (hc : c.WF) (h : Inv c s) : Inv c (encodeSlot c s) := by
  rw [encodeSlot]
  rcases fetchChar_cases c s with ⟨-, hf⟩ | ⟨-, -, -, hf⟩ | ⟨answer, rest, -, -, -, hf⟩ <;> rw [hf]
  · exact emitBit_keeps_inv hc h
  · exact h
  · have asked : Inv c ({ s with env := { s.env with txc := rest } }.send
        [.sourceCall s.cbctx answer]) := { h with }
    cases answer with
    | none => exact emitBit_keeps_inv hc asked
    | some ch => exact emitBit_keeps_inv hc (loadPattern_keeps_inv hc asked ch)

/-- TENC waits for the source, or encodes the slot if there is one, and goes to the next slot or
ends (R93, R168). -/
theorem tenc_cases (c : Config) (s : State) :
    tenc c s = s ∨ tenc c s = endTxt s ∨ tenc c s = endTxt (encodeSlot c s)
      ∨ s.slot + 1 < c.D * c.T ∧ tenc c s = (encodeSlot c s).place Phase.tenc (s.slot + 1) := by
  rw [tenc]
  split
  · cases hf : fetchChar c s with
    | none => exact .inl rfl
    | some s1 =>
      have henc : encodeSlot c s = emitBit s1 := by rw [encodeSlot, hf]
      obtain ⟨-, hslot⟩ := encodeSlot_sequencer c s
      rw [henc] at hslot ⊢
      dsimp only
      rw [hslot]
      split
      · exact .inr (.inr (.inr ⟨‹_›, rfl⟩))
      · exact .inr (.inr (.inl rfl))
  · exact .inr (.inl rfl)

theorem endTxt_keeps_inv (h : Inv c s) (hq : s.seq = Phase.tenc) : Inv c (endTxt s) := by
  have moved : Sequenced c (endTxt s) :=
    sequenced_idle rfl (h.not_syncedFull (by simp [hq])) (h.subf_rest (by simp [hq])) rfl
      (h.latch_idle (.inr hq))
  exact { moved, h with }

theorem tenc_keeps_inv (hc : c.WF) (h : Inv c s) (hq : s.seq = Phase.tenc) : Inv c (tenc c s) := by
  have henc := encodeSlot_keeps_inv hc h
  have hseq : (encodeSlot c s).seq = Phase.tenc := (encodeSlot_sequencer c s).1.trans hq
  rcases tenc_cases c s with ht | ht | ht | ⟨hmore, ht⟩ <;> rw [ht]
  · exact h
  · exact endTxt_keeps_inv h hq
  · exact endTxt_keeps_inv henc hseq
  · have moved : Sequenced c ((encodeSlot c s).place Phase.tenc (s.slot + 1)) :=
      sequenced_tenc rfl (henc.not_syncedFull (by simp [hseq])) (henc.subf_rest (by simp [hseq]))
        (.inr hmore) (henc.latch_idle (.inr hseq))
    exact { moved, henc with }

/-! #### Any phase -/

theorem PhaseDone.keeps_inv {t : State} (ht : PhaseDone c s t) (hc : c.WF) (h : Inv c s) :
    Inv c t := by
  cases ht with
  | waits => exact h
  | command hq _ hdone => exact hdone.keeps_inv { h with } hq
  | gate hq => exact gate_keeps_inv h hq
  | shap hq => exact shap_keeps_inv hc h hq
  | isyn hq => exact isyn_keeps_inv hc h hq
  | wchk hq => exact wchk_keeps_inv hc h hq
  | dsub hq => exact dsub_keeps_inv hc h hq
  | tdec hq => exact tdec_keeps_inv h hq
  | uwer hq => exact uwer_keeps_inv h hq
  | adv hq => exact adv_keeps_inv h hq
  | verd hq => exact verd_keeps_inv h hq
  | tenc hq => exact tenc_keeps_inv hc h hq

end Sys2Proof.Machine
end

section
/-! ### A step within a session, and what a command may write -/

namespace Sys2Proof.Machine

open Sys2Proof.Claims

variable {c : Config} {s t : State}

/-- An SRST that runs was not waiting for its response to be accepted (R81, R168). -/
theorem takesSrst_of_running {rest : List Word} (hq : s.seq = Phase.idle)
    (hcmd : s.env.cmd = 0x01000000 :: rest) (hrun : stalled c s = false) : takesSrst s = true := by
  have hsends : sendsResponse c s = true := by
    rw [sendsResponse, hq, hcmd]
    rfl
  have hready : s.env.rspReady = true := by
    by_contra hnot
    simp [stalled, hnot, hsends] at hrun
  simp [takesSrst, hq, hcmd, hready]

/-- A step within a session is a wait, a command other than SRST, or a phase. -/
theorem session_step_cases (h : step s = .next t) (hrst : s.env.rst = false)
    (hsession : takesSrst s = false) :
    t = s
      ∨ (∃ w rest, s.seq = Phase.idle ∧ s.env.cmd = w :: rest ∧ w ≠ 0x01000000
          ∧ CommandDone Config.cfg w { s with env := { s.env with cmd := rest } } t)
      ∨ (s.seq ≠ Phase.idle ∧ PhaseDone Config.cfg s t) := by
  rcases step_cases h with ⟨hpin, -⟩ | ⟨-, rfl, -⟩ | ⟨-, hrun, hdone⟩
  · simp [hrst] at hpin
  · exact .inl rfl
  · by_cases hidle : s.seq = Phase.idle
    · cases hdone with
      | waits => exact .inl rfl
      | @command w rest _ _ hcmd hdone =>
        refine .inr (.inl ⟨w, rest, hidle, hcmd, ?_, hdone⟩)
        rintro rfl
        simp [takesSrst_of_running hidle hcmd hrun] at hsession
      | _ hq => simp [hidle] at hq
    · exact .inr (.inr ⟨hidle, hdone⟩)

/-! #### Groups of registers with the same writers -/

/-- The configuration registers (R27). -/
def State.modes (s : State) : BitVec 4 × BitVec 16 × BitVec 16 × BitVec 16 :=
  (s.ctrl, s.sqth, s.esno, s.cbctx)

/-- The registers host commands alone write within a session: the configuration registers and ERR
(R26, R27). -/
def State.hostWritten (s : State) : (BitVec 4 × BitVec 16 × BitVec 16 × BitVec 16) × BitVec 4 :=
  (s.modes, s.err)

/-- The statistics accumulators (R20). -/
def State.counters (s : State) : BitVec 32 × BitVec 32 × BitVec 32 × BitVec 32 :=
  (s.tbits, s.terrs, s.tbitsc, s.terrsc)

/-- The status flags of the receive side (R30). -/
def State.flags (s : State) : Bool × Bool × Bool := (s.ilvSynced, s.decoded, s.rxIn)

/-- The results of the most recent decode (R24). -/
def State.decodeResults (s : State) : BitVec 16 × BitVec 16 := (s.pcc, s.iter)

/-- `t` with what a host command within a session may write put back from `s`. -/
def State.putBack (s t : State) : State :=
  { t with
    ctrl := s.ctrl, sqth := s.sqth, esno := s.esno, cbctx := s.cbctx, err := s.err, lat := s.lat
    seq := s.seq, slot := s.slot, trace := s.trace }

/-- A command other than SRST writes the configuration registers, ERR, the latch, SEQ, SLOT and the
trace alone (R80, R82 to R86). -/
theorem CommandDone.frame {w : Word} (h : CommandDone c w s t) (hw : w ≠ 0x01000000) :
    s.putBack t = s := by
  cases h with
  | illegal => rfl
  | nop => rfl
  | srst h => exact absurd h hw
  | csrw => exact (congrArg s.putBack (csrw_frame _ _ s) :)
  | csrr => exact (congrArg s.putBack (csrr_frame _ s) :)
  | rdb => exact (congrArg s.putBack (rdb_frame c _ s) :)
  | rxf => exact (congrArg s.putBack (rxf_frame _ _ s) :)
  | txt => rfl

theorem CommandDone.counters {w : Word} (h : CommandDone c w s t) (hw : w ≠ 0x01000000) :
    t.counters = s.counters := (congrArg State.counters (h.frame hw) :)

theorem CommandDone.flags {w : Word} (h : CommandDone c w s t) (hw : w ≠ 0x01000000) :
    t.flags = s.flags := (congrArg State.flags (h.frame hw) :)

theorem CommandDone.decodeResults {w : Word} (h : CommandDone c w s t) (hw : w ≠ 0x01000000) :
    t.decodeResults = s.decodeResults := (congrArg State.decodeResults (h.frame hw) :)

/-- The first error code sticks in ERR (R141). -/
theorem CommandDone.errRecorded {w : Word} (h : CommandDone c w s t) (hw : w ≠ 0x01000000) :
    ErrRecorded s t := by
  cases h with
  | illegal => exact raiseError_errRecorded _ s
  | nop => exact .inl rfl
  | srst h => exact absurd h hw
  | csrw => exact csrw_errRecorded _ _ s
  | csrr => exact csrr_errRecorded _ s
  | rdb => exact rdb_errRecorded c _ s
  | rxf => exact rxf_errRecorded _ _ s
  | txt => exact .inl rfl

/-- A CSRW of an index above 0x03 is an error and writes no configuration register (R82). -/
theorem csrw_modes (csr : BitVec 8) (value : BitVec 16) (s : State) :
    (csrw csr value s).modes = s.modes ∨ csr.toNat ≤ 0x03 := by
  rcases csrWritten_cases s csr value with ⟨rfl, -⟩ | ⟨rfl, -⟩ | ⟨rfl, -⟩ | ⟨rfl, -⟩ | ⟨-, hw⟩
  · exact .inr (by decide)
  · exact .inr (by decide)
  · exact .inr (by decide)
  · exact .inr (by decide)
  · exact .inl (by rw [csrw, hw]; rfl)

/-- The configuration registers are kept by every command but a CSRW of one of them and SRST. -/
theorem CommandDone.modes {w : Word} (h : CommandDone c w s t) (hw : w ≠ 0x01000000) :
    t.modes = s.modes
      ∨ ∃ csr value, decodeCommand w = .ok (.csrw csr value) ∧ csr.toNat ≤ 0x03 := by
  cases h with
  | illegal => exact .inl rfl
  | nop => exact .inl rfl
  | srst h => exact absurd h hw
  | csrw h => exact (csrw_modes _ _ s).imp_right fun hle => ⟨_, _, h, hle⟩
  | csrr => exact .inl (congrArg State.modes (csrr_frame _ s) :)
  | rdb => exact .inl (congrArg State.modes (rdb_frame c _ s) :)
  | rxf => exact .inl (congrArg State.modes (rxf_frame _ _ s) :)
  | txt => exact .inl rfl

/-- TENC writes the encoder registers, SLOT and SEQ alone (R93). -/
theorem tenc_frame (c : Config) (s : State) :
    { tenc c s with
      txBits := s.txBits, txIdx := s.txIdx, txN := s.txN, slot := s.slot, seq := s.seq
      env := s.env, trace := s.trace } = s := by
  obtain ⟨_, _, _, _, _, _, _, h⟩ := tenc_form c s
  rw [h]

/-- No phase writes a configuration register or ERR (R26, R27). -/
theorem PhaseDone.hostWritten (h : PhaseDone c s t) (hphase : s.seq ≠ Phase.idle) :
    t.hostWritten = s.hostWritten := by
  cases h with
  | waits => rfl
  | command hidle => exact absurd hidle hphase
  | gate => exact (congrArg State.hostWritten (gate_frame c s) :)
  | shap => rfl
  | isyn => exact (congrArg State.hostWritten (isyn_frame c s) :)
  | wchk => exact (congrArg State.hostWritten (wchk_frame c s) :)
  | dsub => exact (congrArg State.hostWritten (dsub_frame c s) :)
  | tdec => exact (congrArg State.hostWritten (tdec_frame c s) :)
  | uwer => rfl
  | adv => exact (congrArg State.hostWritten (adv_frame s) :)
  | verd => rfl
  | tenc => exact (congrArg State.hostWritten (tenc_frame c s) :)

end Sys2Proof.Machine
end

section
/-! ### Who writes the accumulators, the flags and the results of a decode (R20, R24, R30) -/

namespace Sys2Proof.Machine

variable {c : Config} {s t : State}

/-! #### The accumulators only grow -/

/-- Each accumulator is at least what it was. -/
def CountersLe (s t : State) : Prop :=
  s.tbits.toNat ≤ t.tbits.toNat ∧ s.terrs.toNat ≤ t.terrs.toNat
    ∧ s.tbitsc.toNat ≤ t.tbitsc.toNat ∧ s.terrsc.toNat ≤ t.terrsc.toNat

theorem countersLe_of_eq (h : t.counters = s.counters) : CountersLe s t := by
  simp only [State.counters, Prod.mk.injEq] at h
  obtain ⟨h1, h2, h3, h4⟩ := h
  simp [CountersLe, h1, h2, h3, h4]

/-- Saturation never takes an accumulator below its value (R131). -/
theorem le_satadd32 (a : BitVec 32) (b : Nat) : a.toNat ≤ (satadd32 a b).toNat := by
  have := a.isLt
  rw [satadd32_toNat]
  omega

theorem uwer_countersLe (c : Config) (s : State) : CountersLe s (uwer c s) :=
  ⟨le_satadd32 _ _, le_satadd32 _ _, Nat.le_refl _, Nat.le_refl _⟩

theorem useDecoded_countersLe (c : Config) (j : Nat) (bits : List Bit) (s : State) :
    CountersLe s (useDecoded c j bits s) := by
  rw [useDecoded]
  split
  · exact ⟨Nat.le_refl _, Nat.le_refl _, le_satadd32 _ _, le_satadd32 _ _⟩
  · exact countersLe_of_eq rfl

theorem dsub_countersLe (c : Config) (s : State) : CountersLe s (dsub c s) := by
  have used := useDecoded_countersLe c s.subf (payload c (fecDecode c s s.subf))
    (s.decodeSub c s.subf)
  rw [dsub]
  split
  · rw [dsubAdvance]
    split <;> exact used
  · exact countersLe_of_eq rfl

theorem PhaseDone.countersLe (h : PhaseDone c s t) (hphase : s.seq ≠ Phase.idle) :
    CountersLe s t := by
  cases h with
  | waits => exact countersLe_of_eq rfl
  | command hidle => exact absurd hidle hphase
  | gate => exact countersLe_of_eq (congrArg State.counters (gate_frame c s) :)
  | shap => exact countersLe_of_eq rfl
  | isyn => exact countersLe_of_eq (congrArg State.counters (isyn_frame c s) :)
  | wchk => exact countersLe_of_eq (congrArg State.counters (wchk_frame c s) :)
  | dsub => exact dsub_countersLe c s
  | tdec => exact countersLe_of_eq (congrArg State.counters (tdec_frame c s) :)
  | uwer => exact uwer_countersLe c s
  | adv => exact countersLe_of_eq (congrArg State.counters (adv_frame s) :)
  | verd => exact countersLe_of_eq rfl
  | tenc => exact countersLe_of_eq (congrArg State.counters (tenc_frame c s) :)

/-! #### The flags and the results of the last decode -/

/-- Interleaver sync is lost and the results of the last decode with it (R101, R114). -/
def SyncDropped (t : State) : Prop := t.pcc = 0 ∧ t.iter = 0 ∧ t.ilvSynced = false ∧ t.fci = 0

theorem gate_sync (c : Config) (s : State) :
    ((gate c s).ilvSynced = s.ilvSynced ∧ (gate c s).decodeResults = s.decodeResults)
      ∨ s.lat.gate = Phy.searching ∧ SyncDropped (gate c s) := by
  rw [gate]
  dsimp only
  split
  · exact .inl ⟨rfl, rfl⟩
  · split
    · exact .inr ⟨‹_›, rfl, rfl, rfl, rfl⟩
    · split <;> exact .inl ⟨rfl, rfl⟩

theorem gate_decoded (c : Config) (s : State) :
    (gate c s).decoded = s.decoded ∨ (gate c s).decoded = false := by
  rw [gate]
  dsimp only
  split
  · exact .inl rfl
  · split
    · exact .inr rfl
    · split <;> exact .inr rfl

theorem adv_sync (s : State) :
    ((adv s).ilvSynced = s.ilvSynced ∧ (adv s).decodeResults = s.decodeResults)
      ∨ s.lat.post = Phy.searching ∧ SyncDropped (adv s) := by
  rw [adv]
  split
  · exact .inr ⟨‹_›, rfl, rfl, rfl, rfl⟩
  · exact .inl ⟨rfl, rfl⟩

/-- ISYN tries an unsynchronised window only, so it never clears the flag (R112). -/
theorem isyn_ilvSynced (c : Config) (s : State) :
    (isyn c s).ilvSynced = s.ilvSynced ∨ (isyn c s).ilvSynced = true := by
  cases hs : s.ilvSynced with
  | false => exact (Bool.eq_false_or_eq_true _).symm
  | true => exact .inl (by simp [isyn, hs])

theorem wchk_decoded (c : Config) (s : State) :
    (wchk c s).decoded = s.decoded ∨ (wchk c s).decoded = true := by
  rw [wchk]
  split
  · exact .inr rfl
  · exact .inl rfl

/-- Who writes the receive-side flags, and with what value (R30). -/
structure FlagsWritten (s t : State) : Prop where
  ilvSynced : t.ilvSynced = s.ilvSynced ∨ (s.seq = Phase.isyn ∧ t.ilvSynced = true)
    ∨ ((s.seq = Phase.gate ∨ s.seq = Phase.adv) ∧ t.ilvSynced = false)
  decoded : t.decoded = s.decoded ∨ (s.seq = Phase.wchk ∧ t.decoded = true)
    ∨ (s.seq = Phase.gate ∧ t.decoded = false)
  rxIn : t.rxIn = s.rxIn ∨ s.seq = Phase.tdec

theorem flagsWritten_of_eq (h : t.flags = s.flags) : FlagsWritten s t := by
  simp only [State.flags, Prod.mk.injEq] at h
  obtain ⟨hsync, hdecoded, hin⟩ := h
  exact ⟨.inl hsync, .inl hdecoded, .inl hin⟩

theorem gate_flagsWritten (c : Config) (hq : s.seq = Phase.gate) : FlagsWritten s (gate c s) where
  ilvSynced := (gate_sync c s).imp (·.1) fun ⟨_, _, _, hsync, _⟩ => .inr ⟨.inl hq, hsync⟩
  decoded := (gate_decoded c s).imp_right fun hd => .inr ⟨hq, hd⟩
  rxIn := .inl (congrArg State.rxIn (gate_frame c s) :)

theorem isyn_flagsWritten (c : Config) (hq : s.seq = Phase.isyn) : FlagsWritten s (isyn c s) where
  ilvSynced := (isyn_ilvSynced c s).imp_right fun hs => .inl ⟨hq, hs⟩
  decoded := .inl (congrArg State.decoded (isyn_frame c s) :)
  rxIn := .inl (congrArg State.rxIn (isyn_frame c s) :)

theorem wchk_flagsWritten (c : Config) (hq : s.seq = Phase.wchk) : FlagsWritten s (wchk c s) where
  ilvSynced := .inl (congrArg State.ilvSynced (wchk_frame c s) :)
  decoded := (wchk_decoded c s).imp_right fun hd => .inl ⟨hq, hd⟩
  rxIn := .inl (congrArg State.rxIn (wchk_frame c s) :)

theorem tdec_flagsWritten (c : Config) (hq : s.seq = Phase.tdec) : FlagsWritten s (tdec c s) where
  ilvSynced := .inl (congrArg State.ilvSynced (tdec_frame c s) :)
  decoded := .inl (congrArg State.decoded (tdec_frame c s) :)
  rxIn := .inr hq

theorem adv_flagsWritten (hq : s.seq = Phase.adv) : FlagsWritten s (adv s) where
  ilvSynced := (adv_sync s).imp (·.1) fun ⟨_, _, _, hsync, _⟩ => .inr ⟨.inr hq, hsync⟩
  decoded := .inl (congrArg State.decoded (adv_frame s) :)
  rxIn := .inl (congrArg State.rxIn (adv_frame s) :)

theorem PhaseDone.flagsWritten (h : PhaseDone c s t) (hphase : s.seq ≠ Phase.idle) :
    FlagsWritten s t := by
  cases h with
  | waits => exact flagsWritten_of_eq rfl
  | command hidle => exact absurd hidle hphase
  | gate hq => exact gate_flagsWritten c hq
  | shap => exact flagsWritten_of_eq rfl
  | isyn hq => exact isyn_flagsWritten c hq
  | wchk hq => exact wchk_flagsWritten c hq
  | dsub => exact flagsWritten_of_eq (congrArg State.flags (dsub_frame c s) :)
  | tdec hq => exact tdec_flagsWritten c hq
  | uwer => exact flagsWritten_of_eq rfl
  | adv hq => exact adv_flagsWritten hq
  | verd => exact flagsWritten_of_eq rfl
  | tenc => exact flagsWritten_of_eq (congrArg State.flags (tenc_frame c s) :)

/-- Outside ISYN and DSUB a phase keeps PCC and ITER, or drops interleaver sync (R24). -/
theorem PhaseDone.decodeResults (h : PhaseDone c s t) (hphase : s.seq ≠ Phase.idle)
    (hisyn : s.seq ≠ Phase.isyn) (hdsub : s.seq ≠ Phase.dsub) :
    t.decodeResults = s.decodeResults
      ∨ SyncDropped t ∧ ((s.seq = Phase.gate ∧ s.lat.gate = Phy.searching)
        ∨ (s.seq = Phase.adv ∧ s.lat.post = Phy.searching)) := by
  cases h with
  | waits => exact .inl rfl
  | command hidle => exact absurd hidle hphase
  | gate hq => exact (gate_sync c s).imp (·.2) fun ⟨hsearch, hdrop⟩ => ⟨hdrop, .inl ⟨hq, hsearch⟩⟩
  | shap => exact .inl rfl
  | isyn hq => exact absurd hq hisyn
  | wchk => exact .inl (congrArg State.decodeResults (wchk_frame c s) :)
  | dsub hq => exact absurd hq hdsub
  | tdec => exact .inl (congrArg State.decodeResults (tdec_frame c s) :)
  | uwer => exact .inl rfl
  | adv hq => exact (adv_sync s).imp (·.2) fun ⟨hsearch, hdrop⟩ => ⟨hdrop, .inr ⟨hq, hsearch⟩⟩
  | verd => exact .inl rfl
  | tenc => exact .inl (congrArg State.decodeResults (tenc_frame c s) :)

end Sys2Proof.Machine
end

section
/-! ### The statements about the state -/

namespace Sys2Proof.Machine

/-- Settles O9: a reset starts a good state, a wait keeps it, and each micro-operation writes its
own fields within their ranges and leaves the sequencer at a phase whose conditions it has met. -/
theorem stepKeepsGoodStates : Obligations.StepKeepsGoodStates := by
  intro s t h hstep
  rcases step_cases hstep with ⟨-, rfl⟩ | ⟨-, rfl, -⟩ | ⟨-, -, hdone⟩
  · exact inv_resetOn _ _ _
  · exact h
  · exact hdone.keeps_inv Config.cfg_wf h

/-- Settles O46: only UWER and DSUB write the accumulators, by saturating addition. -/
theorem countersNeverDecrease : Obligations.CountersNeverDecrease := by
  intro s t h hrst hsession
  rcases session_step_cases h hrst hsession with rfl | ⟨_, _, -, -, hw, hdone⟩ | ⟨hphase, hdone⟩
  · exact countersLe_of_eq rfl
  · exact countersLe_of_eq (hdone.counters hw)
  · exact hdone.countersLe hphase

/-- Settles O47: no phase writes ERR, and error entry writes it only while it is 0. -/
theorem firstErrorSticks : Obligations.FirstErrorSticks := by
  intro s t h hrst hsession herr
  rcases session_step_cases h hrst hsession with rfl | ⟨_, _, -, -, hw, hdone⟩ | ⟨hphase, hdone⟩
  · rfl
  · rcases hdone.errRecorded hw with hkept | ⟨hzero, -⟩
    · exact hkept
    · exact absurd hzero herr
  · exact congrArg Prod.snd (hdone.hostWritten hphase)

/-- Settles O52: the five phases that write a receive-side flag do so as the table of R30 says; ERR
is written in IDLE, where commands run. -/
theorem flagWriters : Obligations.FlagWriters := by
  intro s t h hrst hsession
  have written : FlagsWritten s t ∧ (t.err = s.err ∨ s.seq = Phase.idle) := by
    rcases session_step_cases h hrst hsession with rfl | ⟨_, _, hidle, -, hw, hdone⟩ |
      ⟨hphase, hdone⟩
    · exact ⟨flagsWritten_of_eq rfl, .inl rfl⟩
    · exact ⟨flagsWritten_of_eq (hdone.flags hw), .inr hidle⟩
    · exact ⟨hdone.flagsWritten hphase, .inl (congrArg Prod.snd (hdone.hostWritten hphase))⟩
  obtain ⟨⟨hsync, hdecoded, hin⟩, herr⟩ := written
  exact ⟨hsync.resolve_left, hdecoded.resolve_left, hin.resolve_left, herr.resolve_left⟩

/-- Settles O53: of the other phases GATE and ADV alone write PCC and ITER, by dropping sync. -/
theorem decodeResultsPersist : Obligations.DecodeResultsPersist := by
  intro s t h hrst hsession hisyn hdsub hchange
  have hresults : t.decodeResults ≠ s.decodeResults := by
    simpa only [State.decodeResults, ne_eq, Prod.mk.injEq, not_and_or] using hchange
  rcases session_step_cases h hrst hsession with rfl | ⟨_, _, -, -, hw, hdone⟩ | ⟨hphase, hdone⟩
  · exact absurd rfl hresults
  · exact absurd (hdone.decodeResults hw) hresults
  · obtain ⟨⟨hpcc, hiter, hsync, hfci⟩, hwhere⟩ :=
      (hdone.decodeResults hphase hisyn hdsub).resolve_left hresults
    exact ⟨hpcc, hiter, hsync, hfci, hwhere⟩

/-- Settles O54: a phase and every other command keep the configuration registers. -/
theorem modesChangeOnlyByCsrw : Obligations.ModesChangeOnlyByCsrw := by
  intro s t h hrst hsession hchange
  have hmodes : t.modes ≠ s.modes := by
    simpa only [State.modes, ne_eq, Prod.mk.injEq, not_and_or] using hchange
  rcases session_step_cases h hrst hsession with rfl | ⟨w, rest, hidle, hcmd, hw, hdone⟩ |
    ⟨hphase, hdone⟩
  · exact absurd rfl hmodes
  · rcases hdone.modes hw with hkept | ⟨csr, value, hdec, hle⟩
    · exact absurd hkept hmodes
    · exact ⟨hidle, w, rest, csr, value, hcmd, hdec, hle⟩
  · exact absurd (congrArg Prod.fst (hdone.hostWritten hphase)) hmodes

/-- Settles O6: the reset values, with a quiet outside and an empty trace. -/
theorem resetStateValues : Obligations.ResetStateValues :=
  resetValues_resetOn Config.cfg Env.quiet []

/-- Settles O8: the reset values, with a quiet outside and an empty trace. -/
theorem resetStateIsGood : Obligations.ResetStateIsGood := inv_resetOn Config.cfg Env.quiet []

end Sys2Proof.Machine
end

/-! ## Storage and ordering: what a step takes, sends and stores (spec/20_memory.md) -/

section
/-! ### The commands a step takes and what it sends (R49, R52, R54) -/

namespace Sys2Proof.Machine

open Sys2Proof.Claims

variable {c : Config} {s t : State}

/-- What a slot of TENC may send: a text bit, or the request whose answer the slot takes at a count
of 0 (R92, R93). -/
def TencSends (s t : State) (e : Event) : Prop :=
  (∃ b, e = .textBit b)
    ∨ ∃ ctx a, e = .sourceCall ctx a ∧ s.srcEn = true ∧ s.txN = 0 ∧ ctx = s.cbctx
      ∧ s.env.txc = a :: t.env.txc

/-- The command words a step from `s` to `t` takes and the events it sends, by kind of step: its
phase, and whether a command is in progress after it. -/
inductive Transfers (c : Config) (s t : State) : List Word → List Event → Prop where
  /-- A wait, or a phase without output. -/
  | silent (hseq : t.seq = Phase.idle ↔ s.seq = Phase.idle) : Transfers c s t [] []
  /-- IDLE begins a micro-program. -/
  | begins {w : Word} (hidle : s.seq = Phase.idle) (hbusy : t.seq ≠ Phase.idle) :
      Transfers c s t [w] []
  /-- IDLE runs a command in place. -/
  | answers {w : Word} {err : Bool} {v : Word} (hidle : s.seq = Phase.idle)
      (hdone : t.seq = Phase.idle) : Transfers c s t [w] [.response err v]
  /-- VERD ends an `RXF`. -/
  | ends {v : Word} (hq : s.seq = Phase.verd) (hdone : t.seq = Phase.idle) :
      Transfers c s t [] [.response false v]
  /-- The trial decode of ISYN, or a sub-frame of DSUB. -/
  | decodes {j : Nat} (hbusy : t.seq ≠ Phase.idle)
      (hwho : (s.seq = Phase.isyn ∧ s.ilvSynced = false ∧ c.D ≤ s.fci + 1 ∧ j = 0)
        ∨ (s.seq = Phase.dsub ∧ s.subf < c.D ∧ j = s.subf)) :
      Transfers c s t [] (decodeInvocations c s j)
  /-- A character completed in a slot of TDEC. -/
  | delivers {ch : Char8} (hq : s.seq = Phase.tdec) (hbusy : t.seq ≠ Phase.idle)
      (hsink : s.sinkEn = true) : Transfers c s t [] [.sinkCall ch s.cbctx]
  /-- TENC goes to the next slot, or ends a `TXT` with its response. -/
  | encodes {es tail : List Event} (hq : s.seq = Phase.tenc) (hes : ∀ e ∈ es, TencSends s t e)
      (hend : tail = [] ∧ t.seq ≠ Phase.idle ∨ tail = [.response false 0] ∧ t.seq = Phase.idle) :
      Transfers c s t [] (es ++ tail)

/-- The step from `s` to `t` took its command words from the head of the port and appended what it
sent to the trace, by one of the kinds of step above. -/
def Transferred (c : Config) (s t : State) : Prop :=
  ∃ taken sent, s.env.cmd = taken ++ t.env.cmd ∧ t.trace = s.trace ++ sent
    ∧ Transfers c s t taken sent

theorem transferred_of_silent (henv : t.env.cmd = s.env.cmd) (htrace : t.trace = s.trace)
    (hseq : t.seq = Phase.idle ↔ s.seq = Phase.idle) : Transferred c s t :=
  ⟨[], [], henv.symm, htrace.trans (List.append_nil _).symm, .silent hseq⟩

/-! #### Host commands -/

/-- A command that runs in place: one response, nothing taken from the outside, SEQ where it was. -/
def Answered (s t : State) : Prop :=
  t.env = s.env ∧ t.seq = s.seq ∧ ∃ err v, t.trace = s.trace ++ [.response err v]

theorem respond_answered (w : Word) (s : State) : Answered s (respond w s) := ⟨rfl, rfl, _, _, rfl⟩

theorem raiseError_answered (e : HostError) (s : State) : Answered s (raiseError e s) :=
  ⟨rfl, rfl, _, _, rfl⟩

theorem csrw_answered (csr : BitVec 8) (value : BitVec 16) (s : State) :
    Answered s (csrw csr value s) := by
  rcases csrWritten_cases s csr value with ⟨-, h⟩ | ⟨-, h⟩ | ⟨-, h⟩ | ⟨-, h⟩ | ⟨-, h⟩ <;>
    rw [csrw, h] <;> exact ⟨rfl, rfl, _, _, rfl⟩

theorem csrr_answered (csr : BitVec 8) (s : State) : Answered s (csrr csr s) := by
  rw [csrr]
  split
  · exact respond_answered _ s
  · exact raiseError_answered _ s

theorem rdb_answered (c : Config) (index : BitVec 16) (s : State) :
    Answered s (rdb c index s) := by
  rw [rdb]
  split
  · exact raiseError_answered _ s
  · exact respond_answered _ s

/-- A command taken in IDLE is answered in place, or begins its micro-program (R70, R76). -/
theorem CommandDone.answered {w : Word} (h : CommandDone c w s t) (hidle : s.seq = Phase.idle) :
    Answered s t ∨ t.env = s.env ∧ t.trace = s.trace ∧ t.seq ≠ Phase.idle := by
  cases h with
  | illegal => exact .inl (raiseError_answered _ s)
  | nop => exact .inl (respond_answered _ s)
  | srst => exact .inl ⟨rfl, hidle.symm, _, _, rfl⟩
  | csrw => exact .inl (csrw_answered _ _ s)
  | csrr => exact .inl (csrr_answered _ s)
  | rdb => exact .inl (rdb_answered c _ s)
  | rxf =>
    rw [Machine.rxf]
    split
    · exact .inl (raiseError_answered _ s)
    · exact .inr ⟨rfl, rfl, by simp⟩
  | txt => exact .inr ⟨rfl, rfl, by simp⟩

theorem CommandDone.transferred {w : Word} {rest : List Word}
    (h : CommandDone c w { s with env := { s.env with cmd := rest } } t)
    (hidle : s.seq = Phase.idle) (hcmd : s.env.cmd = w :: rest) : Transferred c s t := by
  rcases h.answered hidle with ⟨henv, hseq, err, v, htrace⟩ | ⟨henv, htrace, hbusy⟩
  · exact ⟨[w], [.response err v], by rw [henv]; exact hcmd, htrace,
      .answers hidle (hseq.trans hidle)⟩
  · exact ⟨[w], [], by rw [henv]; exact hcmd, by rw [htrace, List.append_nil],
      .begins hidle hbusy⟩

/-! #### The phases -/

/-- A phase that sends nothing, takes no command and ends no command. -/
theorem transferred_of_phase (hq : s.seq ≠ Phase.idle) (henv : t.env.cmd = s.env.cmd)
    (htrace : t.trace = s.trace) (hbusy : t.seq ≠ Phase.idle) : Transferred c s t :=
  transferred_of_silent henv htrace (iff_of_false hbusy hq)

theorem gate_transferred (hq : s.seq = Phase.gate) : Transferred c s (gate c s) := by
  have running : s.seq ≠ Phase.idle := by simp [hq]
  rw [gate]
  dsimp only
  split
  · exact transferred_of_phase running rfl rfl running
  · split
    · exact transferred_of_phase running rfl rfl (by simp)
    · split
      · exact transferred_of_phase running rfl rfl running
      · exact transferred_of_phase running rfl rfl (by simp)

/-- ISYN invokes the decoder in the trial decode alone, on sub-frame 0 (R112). -/
theorem isyn_trace (c : Config) (s : State) :
    (isyn c s).trace = s.trace
      ∨ s.ilvSynced = false ∧ c.D ≤ s.fci + 1
        ∧ (isyn c s).trace = s.trace ++ decodeInvocations c s 0 := by
  rw [isyn]
  dsimp only
  split
  · rename_i htry
    simp only [Bool.and_eq_true, Bool.not_eq_true', beq_iff_eq, min_eq_right_iff] at htry
    exact .inr ⟨htry.1, htry.2, rfl⟩
  · exact .inl rfl

theorem isyn_transferred (hq : s.seq = Phase.isyn) : Transferred c s (isyn c s) := by
  have henv : (isyn c s).env = s.env := (congrArg State.env (isyn_frame c s) :)
  have hbusy : (isyn c s).seq ≠ Phase.idle := by simp [isyn]
  rcases isyn_trace c s with htrace | ⟨hsync, hfull, htrace⟩
  · exact transferred_of_phase (by simp [hq]) (by rw [henv]) htrace hbusy
  · exact ⟨[], _, by rw [henv]; rfl, htrace, .decodes hbusy (.inl ⟨hq, hsync, hfull, rfl⟩)⟩

theorem wchk_transferred (hq : s.seq = Phase.wchk) : Transferred c s (wchk c s) := by
  rw [wchk]
  split <;> exact transferred_of_phase (by simp [hq]) rfl rfl (by simp)

/-- A sub-frame is one decoder invocation (R120). -/
theorem dsub_trace (h : s.subf < c.D) :
    (dsub c s).trace = s.trace ++ decodeInvocations c s s.subf := by
  have hused : (useDecoded c s.subf (payload c (fecDecode c s s.subf))
      (s.decodeSub c s.subf)).trace = s.trace ++ decodeInvocations c s s.subf :=
    (congrArg State.trace (useDecoded_frame c s.subf _ (s.decodeSub c s.subf)) :)
  rw [dsub, if_pos h, dsubAdvance, ← hused]
  split <;> rfl

theorem dsub_seq (c : Config) (s : State) :
    (dsub c s).seq = Phase.dsub ∨ (dsub c s).seq = Phase.tdec := by
  by_cases h : s.subf < c.D
  · by_cases hmore : s.subf + 1 < c.D
    · exact .inl ((dsub_next c h).1 hmore).1
    · exact .inr ((dsub_next c h).2 hmore)
  · exact .inr (by rw [dsub, if_neg h]; rfl)

theorem dsub_transferred (hq : s.seq = Phase.dsub) : Transferred c s (dsub c s) := by
  have henv : (dsub c s).env = s.env := (congrArg State.env (dsub_frame c s) :)
  have hbusy : (dsub c s).seq ≠ Phase.idle := by
    rcases dsub_seq c s with h | h <;> simp [h]
  by_cases h : s.subf < c.D
  · exact ⟨[], _, by rw [henv]; rfl, dsub_trace h, .decodes hbusy (.inr ⟨hq, h, rfl⟩)⟩
  · exact transferred_of_phase (by simp [hq]) (by rw [henv]) (by rw [dsub, if_neg h]; rfl) hbusy

/-- A slot of TDEC sends at most one character, to an enabled sink (R95). -/
theorem tdec_trace (c : Config) (s : State) :
    (tdec c s).trace = s.trace
      ∨ ∃ ch, s.sinkEn = true ∧ (tdec c s).trace = s.trace ++ [.sinkCall ch s.cbctx] := by
  by_cases h : s.slot < c.T
  · have hsent : (tdec c s).trace
        = s.trace ++ (delivered c s).toList.map fun ch => .sinkCall ch s.cbctx := by
      rw [tdec, if_pos h]
      dsimp only
      split <;> rfl
    cases hd : delivered c s with
    | none => exact .inl (by simpa [hd] using hsent)
    | some ch =>
      have hsink : s.sinkEn = true := by
        by_contra hoff
        simp [delivered, hoff] at hd
      exact .inr ⟨ch, hsink, by simpa [hd] using hsent⟩
  · exact .inl (by rw [tdec, if_neg h]; rfl)

theorem tdec_transferred (hq : s.seq = Phase.tdec) : Transferred c s (tdec c s) := by
  have henv := tdec_env c s
  have hbusy : (tdec c s).seq ≠ Phase.idle := by
    rcases tdec_position c s with ⟨h, -⟩ | ⟨h, -⟩ <;> simp [h]
  rcases tdec_trace c s with htrace | ⟨ch, hsink, htrace⟩
  · exact transferred_of_phase (by simp [hq]) (by rw [henv]) htrace hbusy
  · exact ⟨[], _, by rw [henv]; rfl, htrace, .delivers hq hbusy hsink⟩

theorem adv_transferred (hq : s.seq = Phase.adv) : Transferred c s (adv s) :=
  transferred_of_phase (by simp [hq]) (congrArg (·.env.cmd) (adv_frame s) :)
    (congrArg State.trace (adv_frame s) :) (by simp [adv])

/-! #### TENC -/

/-- Loading a pattern sends nothing. -/
theorem loadPattern_trace (bits : List Bit) (s : State) : (loadPattern bits s).trace = s.trace := by
  obtain ⟨_, _, _, h⟩ := loadPattern_form bits s
  rw [h]

theorem emitBit_trace (s : State) : ∃ b, (emitBit s).trace = s.trace ++ [.textBit b] := by
  obtain ⟨_, _, b, h⟩ := emitBit_form s
  exact ⟨b, by rw [h]⟩

/-- A slot asks the source at most once, and then sends its bit (R92, R93). -/
theorem encodeSlot_trace (c : Config) (s : State) :
    ∃ es, (encodeSlot c s).trace = s.trace ++ es ∧ ∀ e ∈ es, TencSends s (encodeSlot c s) e := by
  rw [encodeSlot]
  rcases fetchChar_cases c s with ⟨-, h⟩ | ⟨-, -, -, h⟩ | ⟨answer, rest, hn, hsrc, hans, h⟩ <;>
    rw [h] <;> dsimp only
  · obtain ⟨b, hb⟩ := emitBit_trace s
    exact ⟨_, hb, by simp [TencSends]⟩
  · exact ⟨[], (List.append_nil _).symm, by simp⟩
  · obtain ⟨b, hb⟩ := emitBit_trace (loadPattern (answer.elim [] (pat c))
      ({ s with env := { s.env with txc := rest } }.send [.sourceCall s.cbctx answer]))
    refine ⟨[.sourceCall s.cbctx answer, .textBit b], by simp [hb, loadPattern_trace], ?_⟩
    simp [TencSends, hn, hsrc, hans, emitBit_env, loadPattern_env]

theorem tenc_transferred (hq : s.seq = Phase.tenc) : Transferred c s (tenc c s) := by
  obtain ⟨txc, henv, -⟩ := encodeSlot_env c s
  obtain ⟨es, htrace, hes⟩ := encodeSlot_trace c s
  rcases tenc_cases c s with h | h | h | ⟨-, h⟩ <;> rw [h]
  · exact transferred_of_silent rfl rfl Iff.rfl
  · exact ⟨[], _, rfl, rfl, .encodes (es := []) hq (by simp) (.inr ⟨rfl, rfl⟩)⟩
  · have hends : ∀ e ∈ es, TencSends s (endTxt (encodeSlot c s)) e := hes
    exact ⟨[], _, by simp [endTxt, henv], by simp [endTxt, htrace],
      .encodes hq hends (.inr ⟨rfl, rfl⟩)⟩
  · have hnext : ∀ e ∈ es,
      TencSends s ((encodeSlot c s).place Phase.tenc (s.slot + 1)) e := hes
    exact ⟨[], _, by simp [State.place, henv], by simp [State.place, htrace],
      .encodes hq hnext (.inl ⟨rfl, by simp [State.place]⟩)⟩

/-! #### Any step -/

theorem PhaseDone.transferred (h : PhaseDone c s t) : Transferred c s t := by
  cases h with
  | waits => exact transferred_of_silent rfl rfl Iff.rfl
  | command hq hcmd hdone => exact hdone.transferred hq hcmd
  | gate hq => exact gate_transferred hq
  | shap hq => exact transferred_of_phase (by simp [hq]) rfl rfl (by simp [Machine.shap])
  | isyn hq => exact isyn_transferred hq
  | wchk hq => exact wchk_transferred hq
  | dsub hq => exact dsub_transferred hq
  | tdec hq => exact tdec_transferred hq
  | uwer hq => exact transferred_of_phase (by simp [hq]) rfl rfl (by simp [Machine.uwer])
  | adv hq => exact adv_transferred hq
  | verd hq => exact ⟨[], _, rfl, rfl, .ends hq rfl⟩
  | tenc hq => exact tenc_transferred hq

/-- Every step out of reset, waits included. -/
theorem step_transferred (h : step s = .next t) (hrst : s.env.rst = false) :
    Transferred Config.cfg s t := by
  rcases step_cases h with ⟨hpin, -⟩ | ⟨-, rfl, -⟩ | ⟨-, -, hdone⟩
  · simp [hrst] at hpin
  · exact transferred_of_silent rfl rfl Iff.rfl
  · exact hdone.transferred

/-! #### Commands and responses in balance, and who invokes whom -/

theorem busy_of_idle (h : s.seq = Phase.idle) : busy s = 0 := if_pos h

theorem busy_of_running (h : s.seq ≠ Phase.idle) : busy s = 1 := if_neg h

/-- What a slot of TENC sends holds no response. -/
theorem responses_of_tencSends {es : List Event} (hes : ∀ e ∈ es, TencSends s t e) :
    responses es = [] := by
  refine List.filter_eq_nil_iff.2 fun e he => ?_
  rcases hes e he with ⟨_, rfl⟩ | ⟨_, _, rfl, -⟩ <;> simp

theorem responses_append (es fs : List Event) :
    responses (es ++ fs) = responses es ++ responses fs := List.filter_append ..

/-- Every kind of step keeps the balance of commands and responses. -/
theorem Transfers.balance {taken : List Word} {sent : List Event} (h : Transfers c s t taken sent) :
    taken.length + busy s = (responses sent).length + busy t := by
  cases h with
  | silent hseq => simp only [busy, hseq]; rfl
  | begins hidle hbusy => rw [busy_of_idle hidle, busy_of_running hbusy]; rfl
  | answers hidle hdone => rw [busy_of_idle hidle, busy_of_idle hdone]; rfl
  | ends hq hdone => rw [busy_of_running (by simp [hq]), busy_of_idle hdone]; rfl
  | decodes hbusy hwho =>
    have running : s.seq ≠ Phase.idle := by
      rcases hwho with ⟨hq, -⟩ | ⟨hq, -⟩ <;> simp [hq]
    rw [busy_of_running running, busy_of_running hbusy]
    rfl
  | delivers hq hbusy => rw [busy_of_running (by simp [hq]), busy_of_running hbusy]; rfl
  | encodes hq hes hend =>
    rw [busy_of_running (by simp [hq]), responses_append, responses_of_tencSends hes]
    rcases hend with ⟨rfl, hbusy⟩ | ⟨rfl, hdone⟩
    · rw [busy_of_running hbusy]; rfl
    · rw [busy_of_idle hdone]; rfl

/-- Settles O48: IDLE alone takes a command, and either answers it or begins its micro-program,
which VERD or the end of TENC answers. -/
theorem oneResponsePerCommand : Obligations.OneResponsePerCommand := by
  intro s t h hrst
  obtain ⟨taken, sent, hcmd, htrace, hkind⟩ := step_transferred h hrst
  have inIdle : taken = [] ∨ taken.length = 1 ∧ s.seq = Phase.idle := by
    cases hkind with
    | begins hidle => exact .inr ⟨rfl, hidle⟩
    | answers hidle => exact .inr ⟨rfl, hidle⟩
    | _ => exact .inl rfl
  refine ⟨taken, sent, hcmd, htrace, hkind.balance, ?_, fun hq => inIdle.resolve_right (hq ·.2)⟩
  rcases inIdle with rfl | ⟨hone, -⟩
  · exact Nat.zero_le _
  · exact hone.le

/-- Settles O49: the kinds of step that send something other than a response, each with its
phase. -/
theorem collaboratorsInvokedInOrder : Obligations.CollaboratorsInvokedInOrder := by
  intro s t h hrst
  obtain ⟨taken, sent, -, htrace, hkind⟩ := step_transferred h hrst
  refine ⟨sent, htrace, ?_⟩
  cases hkind with
  | decodes _ hwho =>
    refine ⟨fun _ _ _ _ _ => ?_, fun _ _ => ⟨_, _, _, _, List.mem_cons_self⟩, ?_, ?_, ?_⟩
    · rcases hwho with ⟨hq, hsync, hfull, rfl⟩ | ⟨hq, hsubf, rfl⟩
      · exact .inl ⟨hq, hsync, hfull, rfl⟩
      · exact .inr ⟨hq, hsubf, rfl⟩
    all_goals simp [decodeInvocations]
  | delivers hq _ hsink => simp [hq, hsink]
  | @encodes es tail hq hes hend =>
    have only : ∀ e ∈ es ++ tail, TencSends s t e ∨ e = .response false 0 := by
      intro e he
      rcases List.mem_append.1 he with he | he
      · exact .inl (hes e he)
      · rcases hend with ⟨rfl, -⟩ | ⟨rfl, -⟩
        · cases he
        · exact .inr (List.mem_singleton.1 he)
    refine ⟨fun _ _ _ _ he => ?_, fun _ he => ?_, fun _ _ he => ?_, fun _ _ he => ?_,
      fun _ _ => hq⟩
    · simpa [TencSends] using only _ he
    · simpa [TencSends] using only _ he
    · simpa [TencSends] using only _ he
    · rcases only _ he with (⟨_, h⟩ | ⟨_, _, h, hask⟩) | h <;> cases h
      exact ⟨hq, hask⟩
  | _ => simp

end Sys2Proof.Machine
end

section
/-! ### OUTBUF seen as bytes (R45) -/

namespace Sys2Proof.Machine

/-- The value of a bit sequence whose first bit is the most significant. -/
theorem toNat_ofBoolListBE (bs : List Bit) :
    (BitVec.ofBoolListBE bs).toNat
      = ∑ b ∈ Finset.range bs.length,
          (if bs[b]? = some true then 2 ^ (bs.length - (b + 1)) else 0) := by
  induction bs with
  | nil => rfl
  | cons x bs ih =>
    rw [BitVec.ofBoolListBE, BitVec.toNat_cons', ih, List.length_cons, Finset.sum_range_succ',
      Nat.add_comm (x.toNat <<< _)]
    cases x <;> simp [Nat.shiftLeft_eq]

/-- Byte `n` of OUTBUF is the sum of R45, bits past the buffer 0. -/
theorem outByte_toNat (s : State) (n : Nat) :
    (outByte s n).toNat
      = ∑ b ∈ Finset.range 8, (if s.outbuf[8 * n + b]? = some true then 2 ^ (7 - b) else 0) := by
  have hbit : ∀ x, outBit s x = true ↔ s.outbuf[x]? = some true := by
    intro x
    rw [outBit, List.getD_eq_getElem?_getD]
    cases s.outbuf[x]? <;> simp
  rw [outByte]
  refine (toNat_ofBoolListBE _).trans (Finset.sum_congr (by simp) fun b hb => ?_)
  have hb8 : b < 8 := Finset.mem_range.1 hb
  simp [hb8, hbit]

/-- Settles O17: below OUT_BYTES RDB only responds, with the byte of R45. -/
theorem rdbReadsPackedByte : Obligations.RdbReadsPackedByte := by
  intro s index hindex
  have hreads : rdb Config.cfg index s
      = respond ((outByte s index.toNat).zeroExtend 32) s := if_neg (Nat.not_le.2 hindex)
  refine ⟨_, _, congrArg Host.Outcome.next hreads, ?_, rfl, rfl⟩
  rw [BitVec.toNat_setWidth_of_le (by decide), outByte_toNat]

end Sys2Proof.Machine
end

section
/-! ### Who writes the storage spaces (R40) -/

namespace Sys2Proof.Machine

variable {c : Config} {s t : State}

/-- The window (R14). -/
def State.window (s : State) : List Code × List Code := (s.winSym, s.winAmp)

theorem CommandDone.window {w : Word} (h : CommandDone c w s t) (hw : w ≠ 0x01000000) :
    t.window = s.window := (congrArg State.window (h.frame hw) :)

theorem CommandDone.outbuf {w : Word} (h : CommandDone c w s t) (hw : w ≠ 0x01000000) :
    t.outbuf = s.outbuf := (congrArg State.outbuf (h.frame hw) :)

/-- Of the phases SHAP alone writes the window. -/
theorem PhaseDone.window (h : PhaseDone c s t) (hphase : s.seq ≠ Phase.idle)
    (hshap : s.seq ≠ Phase.shap) : t.window = s.window := by
  cases h with
  | waits => rfl
  | command hidle => exact absurd hidle hphase
  | gate => exact (congrArg State.window (gate_frame c s) :)
  | shap hq => exact absurd hq hshap
  | isyn => exact (congrArg State.window (isyn_frame c s) :)
  | wchk => exact (congrArg State.window (wchk_frame c s) :)
  | dsub => exact (congrArg State.window (dsub_frame c s) :)
  | tdec => exact (congrArg State.window (tdec_frame c s) :)
  | uwer => rfl
  | adv => exact (congrArg State.window (adv_frame s) :)
  | verd => rfl
  | tenc => exact (congrArg State.window (tenc_frame c s) :)

/-- In test mode DSUB scores the payload and stores nothing (R126). -/
theorem dsub_outbuf_of_testMode (c : Config) (htest : s.testMode = true) :
    (dsub c s).outbuf = s.outbuf := by
  have scored : ∀ bits, (useDecoded c s.subf bits (s.decodeSub c s.subf)).outbuf = s.outbuf := by
    intro bits
    have hmode : (s.decodeSub c s.subf).testMode = true := htest
    rw [useDecoded, if_pos hmode]
    rfl
  rw [dsub]
  split
  · rw [dsubAdvance]
    split <;> exact scored _
  · rfl

/-- Of the phases DSUB outside test mode alone writes OUTBUF. -/
theorem PhaseDone.outbuf (h : PhaseDone c s t) (hphase : s.seq ≠ Phase.idle)
    (hdsub : s.seq ≠ Phase.dsub ∨ s.testMode = true) : t.outbuf = s.outbuf := by
  cases h with
  | waits => rfl
  | command hidle => exact absurd hidle hphase
  | gate => exact (congrArg State.outbuf (gate_frame c s) :)
  | shap => rfl
  | isyn => exact (congrArg State.outbuf (isyn_frame c s) :)
  | wchk => exact (congrArg State.outbuf (wchk_frame c s) :)
  | dsub hq => exact dsub_outbuf_of_testMode c (hdsub.resolve_left (not_not.2 hq))
  | tdec => exact (congrArg State.outbuf (tdec_frame c s) :)
  | uwer => rfl
  | adv => exact (congrArg State.outbuf (adv_frame s) :)
  | verd => rfl
  | tenc => exact (congrArg State.outbuf (tenc_frame c s) :)

/-- Settles O51: a wait and a command other than SRST write no storage space. -/
theorem storageWriters : Obligations.StorageWriters := by
  intro s t h hrst hsession
  rcases session_step_cases h hrst hsession with rfl | ⟨_, _, -, -, hw, hdone⟩ | ⟨hphase, hdone⟩
  · exact ⟨fun _ => ⟨rfl, rfl⟩, fun _ => rfl⟩
  · exact ⟨fun _ => Prod.ext_iff.1 (hdone.window hw), fun _ => hdone.outbuf hw⟩
  · exact ⟨fun hshap => Prod.ext_iff.1 (hdone.window hphase hshap), hdone.outbuf hphase⟩

end Sys2Proof.Machine
end

section
/-! ### A whole decode pass outside test mode (R120, R125) -/

namespace Sys2Proof.Machine

open Sys2Proof.Claims

variable {c : Config} {s u : State}

/-- DSUB outside test mode, SUBF and SEQ apart: the decode, and its payload stored at the
sub-frame's offset (R120, R125). -/
def storeSub (c : Config) (s : State) : State :=
  { s.decodeSub c s.subf with
    outbuf := memWriteBlock s.outbuf (s.subf * c.K) (payload c (fecDecode c s s.subf)) }

theorem dsub_eq_storeSub (h : s.subf < c.D) (hmode : s.testMode = false) :
    dsub c s = dsubAdvance c (storeSub c s) := by
  have hoff : ¬(s.decodeSub c s.subf).testMode = true := by
    rw [Bool.not_eq_true]
    exact hmode
  rw [dsub, if_pos h, useDecoded, if_neg hoff]
  rfl

theorem payload_getElem? (r : DecResult) {i : Nat} (hi : i < c.K) :
    (payload c r)[i]? = r.bits[i]? := List.getElem?_take_of_lt hi

theorem payload_length (hc : c.WF) (s : State) (j : Nat) :
    (payload c (fecDecode c s j)).length = c.K := by
  have hbits : (fecDecode c s j).bits.length = c.ND := hc.dec_length _
  rw [payload, List.length_take, hbits, Nat.min_eq_left hc.data_capacity]

/-- State `u` of a decode pass begun in `s`, after its first `k` sub-frames. -/
structure PassDone (c : Config) (s : State) (k : Nat) (u : State) : Prop where
  length : u.outbuf.length = c.D * c.K
  stored : ∀ j < k, ∀ i < c.K, u.outbuf[j * c.K + i]? = (fecDecode c s j).bits[i]?
  counts : ∀ j, k = j + 1 →
    u.pcc.toNat = (fecDecode c s j).pcc ∧ u.iter.toNat = (fecDecode c s j).iter
  trace : u.trace = s.trace ++ (List.range k).flatMap (decodeInvocations c s)
  frame : { u with outbuf := s.outbuf, pcc := s.pcc, iter := s.iter, trace := s.trace,
                   subf := s.subf, seq := s.seq } = s

theorem PassDone.begin (h : s.outbuf.length = c.D * c.K) : PassDone c s 0 s where
  length := h
  stored := fun _ hj => absurd hj (Nat.not_lt_zero _)
  counts := fun _ hj => absurd hj (Nat.succ_ne_zero _).symm
  trace := (List.append_nil _).symm
  frame := rfl

/-- SUBF and SEQ do not matter to what a pass has done. -/
theorem PassDone.dsubAdvance {k : Nat} (h : PassDone c s k u) :
    PassDone c s k (dsubAdvance c u) := by
  rw [Machine.dsubAdvance]
  split <;> exact { h with }

/-- The sub-frames of a pass are those of the window it began with. -/
theorem PassDone.decodes_same {k : Nat} (h : PassDone c s k u) (j : Nat) :
    fecDecode c u j = fecDecode c s j ∧ decodeInvocations c u j = decodeInvocations c s j :=
  fecDecode_congr c j (congrArg State.winSym h.frame :) (congrArg State.winAmp h.frame :)
    (congrArg State.esno h.frame :) (congrArg State.lat h.frame :)

theorem PassDone.storeSub (hc : c.WF) {k : Nat} (h : PassDone c s k u) (hk : k < c.D)
    (hsubf : u.subf = k) : PassDone c s (k + 1) (storeSub c u) := by
  obtain ⟨hdecode, hinvoke⟩ := h.decodes_same k
  have hlen := payload_length hc s k
  have hroom : k * c.K + c.K ≤ c.D * c.K := by
    rw [← Nat.succ_mul]
    exact Nat.mul_le_mul_right _ hk
  subst hsubf
  have houtbuf : (Machine.storeSub c u).outbuf
      = memWriteBlock u.outbuf (u.subf * c.K) (payload c (fecDecode c s u.subf)) := by
    rw [← hdecode]
    rfl
  refine ⟨?_, fun j hj i hi => ?_, fun j hj => ?_, ?_, h.frame⟩
  · rw [houtbuf, memWriteBlock_length, h.length]
  · rw [houtbuf]
    rcases Nat.lt_succ_iff_lt_or_eq.1 hj with hbefore | rfl
    · have hend : j * c.K + c.K ≤ u.subf * c.K := by
        rw [← Nat.succ_mul]
        exact Nat.mul_le_mul_right _ hbefore
      rw [memWriteBlock_outside _ _ _ _ (.inl (by omega)), h.stored j hbefore i hi]
    · rw [memWriteBlock_inside _ _ _ _ (by rw [hlen, h.length]; exact hroom)
        (by rw [hlen]; exact hi), payload_getElem? _ hi]
  · obtain rfl : u.subf = j := Nat.succ.inj hj
    obtain ⟨hpcc, hiter, -, -⟩ := decodeSub_counts hc u u.subf
    rw [hdecode] at hpcc hiter
    exact ⟨hpcc, hiter⟩
  · have htrace : (Machine.storeSub c u).trace = u.trace ++ decodeInvocations c u u.subf := rfl
    rw [htrace, h.trace, hinvoke, List.range_succ, List.flatMap_append, List.append_assoc,
      List.flatMap_singleton]

/-- One DSUB of a pass outside test mode. -/
theorem PassDone.dsub (hc : c.WF) {k : Nat} (h : PassDone c s k u) (hk : k < c.D)
    (hsubf : u.subf = k) (hmode : s.testMode = false) : PassDone c s (k + 1) (dsub c u) := by
  have hctrl : u.ctrl = s.ctrl := (congrArg State.ctrl h.frame :)
  have hoff : u.testMode = false := by rwa [State.testMode, hctrl]
  rw [dsub_eq_storeSub (hsubf ▸ hk) hoff]
  exact (h.storeSub hc hk hsubf).dsubAdvance

/-- In DSUB a step is DSUB while the outside answers (R70, R168). -/
theorem step_of_dsub (ho : EnvOpen s.env) (hq : s.seq = Phase.dsub) :
    step s = .next (dsub Config.cfg s) := by
  have ⟨_, _, _, _, _, hrst⟩ := ho
  rw [step, hrst, stalled_of_open _ ho, hq]
  rfl

theorem PassDone.step {k : Nat} (h : PassDone Config.cfg s k u) (hk : k < Config.cfg.D)
    (ho : EnvOpen s.env) (hmode : s.testMode = false) (hrun : Sys2Proof.core.run k s = .next u)
    (hq : u.seq = Phase.dsub) (hsubf : u.subf = k) :
    Sys2Proof.core.run (k + 1) s = .next (Machine.dsub Config.cfg u)
      ∧ PassDone Config.cfg s (k + 1) (Machine.dsub Config.cfg u) := by
  have henv : u.env = s.env := (congrArg State.env h.frame :)
  exact ⟨(run_add Sys2Proof.core 1 hrun).trans
    (run_one Sys2Proof.core (step_of_dsub (henv ▸ ho) hq)), h.dsub Config.cfg_wf hk hsubf hmode⟩

/-- After `k` steps of a pass of more than `k` sub-frames the sequencer is at sub-frame `k`. -/
theorem run_passDone (ho : EnvOpen s.env) (hmode : s.testMode = false) (hq : s.seq = Phase.dsub)
    (hsubf : s.subf = 0) (hlen : s.outbuf.length = Config.cfg.D * Config.cfg.K) (k : Nat)
    (hk : k < Config.cfg.D) :
    ∃ u, Sys2Proof.core.run k s = .next u ∧ u.seq = Phase.dsub ∧ u.subf = k
      ∧ PassDone Config.cfg s k u := by
  induction k with
  | zero => exact ⟨s, rfl, hq, hsubf, .begin hlen⟩
  | succ k ih =>
    obtain ⟨u, hrun, huq, husubf, hdone⟩ := ih (by omega)
    obtain ⟨hrun', hdone'⟩ := hdone.step (by omega) ho hmode hrun huq husubf
    obtain ⟨hseq, hnext⟩ := (dsub_next Config.cfg (s := u) (by omega)).1 (by omega)
    exact ⟨_, hrun', hseq, by omega, hdone'⟩

/-- Settles O36: each of the `D` steps stores the payload of its sub-frame, and the last one ends
the pass. -/
theorem decodePassFillsOutbuf : Obligations.DecodePassFillsOutbuf := by
  intro s hq hsubf ho hmode hlen
  obtain ⟨d, hd⟩ := Nat.exists_eq_add_one.mpr Config.cfg_wf.D_pos
  obtain ⟨u, hrun, huq, husubf, hdone⟩ := run_passDone ho hmode hq hsubf hlen d (by omega)
  obtain ⟨hrun', hdone'⟩ := hdone.step (by omega) ho hmode hrun huq husubf
  obtain ⟨hseq, hlast⟩ := dsub_last (c := Config.cfg) (s := u) (by omega) (by omega)
  obtain ⟨hpcc, hiter⟩ := hdone'.counts d rfl
  have hframe := hdone'.frame
  rw [hsubf.trans hlast.symm] at hframe
  rw [hd]
  exact ⟨dsub Config.cfg u, hrun', hseq, hlast, hdone'.stored, hpcc, hiter, hdone'.trace, hframe⟩

end Sys2Proof.Machine
end

/-! ## Encoding: command words by their fields, and what IDLE and VERD make of words
(spec/30_encoding.md) -/

section
/-! ### The three fields of a command word (R60) -/

namespace Sys2Proof

@[simp] theorem fieldOp_formatC (op f : BitVec 8) (imm : BitVec 16) :
    fieldOp (formatC op f imm) = op :=
  (BitVec.extractLsb'_append_eq_of_le (xhi := op ++ f) (xlo := imm) (by decide)).trans
    BitVec.extractLsb'_append_eq_left

@[simp] theorem fieldF_formatC (op f : BitVec 8) (imm : BitVec 16) :
    fieldF (formatC op f imm) = f :=
  (BitVec.extractLsb'_append_eq_of_le (xhi := op ++ f) (xlo := imm) (by decide)).trans
    BitVec.extractLsb'_append_eq_right

@[simp] theorem fieldImm_formatC (op f : BitVec 8) (imm : BitVec 16) :
    fieldImm (formatC op f imm) = imm :=
  BitVec.extractLsb'_append_eq_right (a := op ++ f)

/-- A word is nothing but its three fields. -/
theorem formatC_fields (w : Word) : formatC (fieldOp w) (fieldF w) (fieldImm w) = w := by
  have hhigh : fieldOp w ++ fieldF w = w.extractLsb' 16 16 :=
    BitVec.extractLsb'_append_extractLsb'_eq_extractLsb' rfl
  calc formatC (fieldOp w) (fieldF w) (fieldImm w)
      = w.extractLsb' 16 16 ++ w.extractLsb' 0 16 := congrArg (· ++ fieldImm w) hhigh
    _ = w.extractLsb' 0 32 := BitVec.extractLsb'_append_extractLsb'_eq_extractLsb' rfl
    _ = w := BitVec.extractLsb'_eq_self

theorem eq_formatC_iff (w : Word) (op f : BitVec 8) (imm : BitVec 16) :
    w = formatC op f imm ↔ fieldOp w = op ∧ fieldF w = f ∧ fieldImm w = imm := by
  constructor
  · rintro rfl
    exact ⟨fieldOp_formatC .., fieldF_formatC .., fieldImm_formatC ..⟩
  · rintro ⟨rfl, rfl, rfl⟩
    exact (formatC_fields w).symm

/-! #### The two state codes of an RXF in field `f` (R63) -/

theorem fieldGate_eq (w : Word) : fieldGate w = (fieldF w).extractLsb' 0 2 := by
  ext k hk
  simp [fieldGate, fieldF]
  omega

theorem fieldPost_eq (w : Word) : fieldPost w = (fieldF w).extractLsb' 2 2 := by
  ext k hk
  simp [fieldPost, fieldF, ← Nat.add_assoc]
  omega

theorem stateCodes_append (f : BitVec 8) :
    f.extractLsb' 4 4 ++ f.extractLsb' 2 2 ++ f.extractLsb' 0 2 = f := by
  revert f
  decide

theorem stateCodes_of_append (phyGate phyPost : BitVec 2) :
    (0#4 ++ phyPost ++ phyGate).extractLsb' 4 4 = 0#4
      ∧ (0#4 ++ phyPost ++ phyGate).extractLsb' 2 2 = phyPost
      ∧ (0#4 ++ phyPost ++ phyGate).extractLsb' 0 2 = phyGate := by
  revert phyGate phyPost
  decide

/-- The zero bits of the RXF row are the high half of field `f`. -/
theorem and_0xF0_eq_zero_iff (f : BitVec 8) : f &&& 0xF0 = 0 ↔ f.extractLsb' 4 4 = 0 := by
  revert f
  decide

/-! ### Rows of the opcode map by fields (R61) -/

/-- A row looks at each field under its own part of the mask. -/
theorem Row.selects_iff_fields (mop mf pop pf : BitVec 8) (mimm pimm : BitVec 16)
    (build : Word → Instr) (w : Word) :
    (Row.mk (formatC mop mf mimm) (formatC pop pf pimm) build).selects w = true
      ↔ fieldOp w &&& mop = pop ∧ fieldF w &&& mf = pf ∧ fieldImm w &&& mimm = pimm := by
  rw [Row.selects, beq_iff_eq, ← formatC_fields w, Laws.EncodesOwnRow.formatC_and, eq_formatC_iff]
  simp only [fieldOp_formatC, fieldF_formatC, fieldImm_formatC]

/-- The opcode map with masks and matches cut into fields. -/
theorem commandRows_fields : commandRows =
    [⟨formatC 0xFF 0xFF 0xFFFF, formatC 0x00 0 0, fun _ => .nop⟩,
     ⟨formatC 0xFF 0xFF 0xFFFF, formatC 0x01 0 0, fun _ => .srst⟩,
     ⟨formatC 0xFF 0x00 0x0000, formatC 0x02 0 0, fun w => .csrw (fieldF w) (fieldImm w)⟩,
     ⟨formatC 0xFF 0x00 0xFFFF, formatC 0x03 0 0, fun w => .csrr (fieldF w)⟩,
     ⟨formatC 0xFF 0xFF 0x0000, formatC 0x04 0 0, fun w => .rdb (fieldImm w)⟩,
     ⟨formatC 0xFF 0xF0 0xFFFF, formatC 0x10 0 0, fun w => .rxf (fieldGate w) (fieldPost w)⟩,
     ⟨formatC 0xFF 0xFF 0xFFFF, formatC 0x11 0 0, fun _ => .txt⟩] := rfl

/-- Two rows that select the same word agree in every bit both masks look at. -/
theorem Row.not_disjoint {r q : Row} {w : Word} (hr : r.selects w = true)
    (hq : q.selects w = true) : ¬ Row.disjoint r q = true := by
  rw [Row.selects, beq_iff_eq] at hr hq
  have hagree : (w &&& r.mask ^^^ w &&& q.mask) &&& r.mask &&& q.mask = 0#32 := by
    ext k hk
    simp only [BitVec.getElem_and, BitVec.getElem_xor, BitVec.getElem_zero]
    cases w[k] <;> cases r.mask[k] <;> cases q.mask[k] <;> rfl
  rw [Row.disjoint, ← hr, ← hq, hagree]
  decide

/-- No two rows overlap, so any row that selects a word decodes it. -/
theorem decodeCommand_ok_iff_row (w : Word) (i : Instr) :
    decodeCommand w = .ok i ↔ ∃ r ∈ commandRows, r.selects w = true ∧ r.build w = i := by
  constructor
  · intro h
    rw [decodeCommand] at h
    split at h
    · rename_i r hfound
      cases h
      have hsel := List.find?_some hfound
      exact ⟨r, List.mem_of_find?_eq_some hfound, hsel, rfl⟩
    · cases h
  · rintro ⟨r, hmem, hsel, rfl⟩
    obtain ⟨before, behind, hrows⟩ := List.append_of_mem hmem
    have hfirst : commandRows.find? (fun q => q.selects w) = some r := by
      refine List.find?_eq_some_iff_append.2 ⟨hsel, before, behind, hrows, fun q hq => ?_⟩
      have hpair := hrows ▸ commandRows_disjoint
      have hdisjoint := (List.pairwise_append.1 hpair).2.2 q hq r List.mem_cons_self
      simpa using fun hqsel => Row.not_disjoint hqsel hsel hdisjoint
    rw [decodeCommand, hfirst]

/-- The rows of R61 by fields: which words are which command. -/
theorem decodeCommand_ok_iff (w : Word) (i : Instr) :
    decodeCommand w = .ok i ↔
      (fieldOp w = 0x00 ∧ fieldF w = 0 ∧ fieldImm w = 0 ∧ i = .nop)
      ∨ (fieldOp w = 0x01 ∧ fieldF w = 0 ∧ fieldImm w = 0 ∧ i = .srst)
      ∨ (fieldOp w = 0x02 ∧ i = .csrw (fieldF w) (fieldImm w))
      ∨ (fieldOp w = 0x03 ∧ fieldImm w = 0 ∧ i = .csrr (fieldF w))
      ∨ (fieldOp w = 0x04 ∧ fieldF w = 0 ∧ i = .rdb (fieldImm w))
      ∨ (fieldOp w = 0x10 ∧ (fieldF w).extractLsb' 4 4 = 0 ∧ fieldImm w = 0
          ∧ i = .rxf (fieldGate w) (fieldPost w))
      ∨ (fieldOp w = 0x11 ∧ fieldF w = 0 ∧ fieldImm w = 0 ∧ i = .txt) := by
  have hbyte : ∀ x : BitVec 8, x &&& 0xFF = x := fun x => BitVec.and_allOnes (x := x)
  have himm : ∀ x : BitVec 16, x &&& 0xFFFF = x := fun x => BitVec.and_allOnes (x := x)
  have hnone8 : ∀ x : BitVec 8, x &&& 0 = 0 := fun x => BitVec.and_zero
  have hnone16 : ∀ x : BitVec 16, x &&& 0 = 0 := fun x => BitVec.and_zero
  simp only [decodeCommand_ok_iff_row, commandRows_fields, List.exists_mem_cons_iff,
    Row.selects_iff_fields, hbyte, himm, hnone8, hnone16, and_0xF0_eq_zero_iff, and_assoc, true_and,
    List.not_mem_nil, false_and, exists_false, or_false, eq_comm (b := i)]

/-- A command word is the encoding of the command it decodes to. -/
theorem encode_of_decodeCommand {w : Word} {i : Instr} (h : decodeCommand w = .ok i) :
    encode i = .command w := by
  have hword : ∀ {op f imm}, fieldOp w = op → fieldF w = f → fieldImm w = imm →
      Encoded.command (formatC op f imm) = .command w := fun hop hf himm =>
    congrArg Encoded.command ((eq_formatC_iff w ..).2 ⟨hop, hf, himm⟩).symm
  rcases (decodeCommand_ok_iff w i).1 h with ⟨hop, hf, himm, rfl⟩ | ⟨hop, hf, himm, rfl⟩ |
    ⟨hop, rfl⟩ | ⟨hop, himm, rfl⟩ | ⟨hop, hf, rfl⟩ | ⟨hop, hf, himm, rfl⟩ | ⟨hop, hf, himm, rfl⟩
  · exact hword hop hf himm
  · exact hword hop hf himm
  · exact hword hop rfl rfl
  · exact hword hop rfl himm
  · exact hword hop hf rfl
  · refine hword hop ?_ himm
    rw [fieldPost_eq, fieldGate_eq, ← hf, stateCodes_append]
  · exact hword hop hf himm

/-- Settles O1: a command's own row selects its word, whatever the operands; a phase's code is
that of its row. -/
theorem decodeInvertsEncode : Obligations.DecodeInvertsEncode := by
  intro i
  cases i with
  | nop | srst | csrw | csrr | rdb | txt => simp [encode, decode, decodeCommand_ok_iff]
  | rxf phyGate phyPost =>
    obtain ⟨hzero, hpost, hgate⟩ := stateCodes_of_append phyGate phyPost
    simp [encode, decode, decodeCommand_ok_iff, fieldGate_eq, fieldPost_eq, hzero, hpost, hgate]
  | _ => rfl

/-- Settles O2: the masks and the phase codes leave no bit free but those of the operands. -/
theorem encodeInvertsDecode : Obligations.EncodeInvertsDecode := by
  intro e i h
  cases e with
  | command w => exact encode_of_decodeCommand h
  | phase p =>
    rcases decodePhase_cases h with ⟨rfl, rfl⟩ | ⟨rfl, rfl⟩ | ⟨rfl, rfl⟩ | ⟨rfl, rfl⟩ |
      ⟨rfl, rfl⟩ | ⟨rfl, rfl⟩ | ⟨rfl, rfl⟩ | ⟨rfl, rfl⟩ | ⟨rfl, rfl⟩ | ⟨rfl, rfl⟩ | ⟨rfl, rfl⟩ <;>
      rfl

/-- Settles O3: the rows of R61 by fields, and IllegalCommand as the only refusal. -/
theorem commandWordsByField : Obligations.CommandWordsByField := by
  intro w
  refine ⟨?_, ?_⟩
  · simp only [decodeCommand_ok_iff, exists_or, exists_and_left, exists_eq, and_true]
  · cases h : decodeCommand w with
    | ok i => exact .inl ⟨i, rfl⟩
    | error e => exact .inr (by rw [decodeCommand_error h])

/-- Settles O4: each word meets its row; the codes with no row are refused. -/
theorem specWordsDecode : Obligations.SpecWordsDecode := by
  unfold Obligations.SpecWordsDecode
  decide

end Sys2Proof
end

section
/-! ### What a step and IDLE run (R70, R76), and where RXF and TXT begin (R71) -/

namespace Sys2Proof.Machine

/-- Out of reset and not held by a port, the phase in SEQ runs. -/
theorem step_eq_exec {s : State} {i : Instr} (hrst : s.env.rst = false)
    (hrun : stalled Config.cfg s = false) (hi : decodePhase s.seq = .ok i) : step s = exec i s := by
  rw [step, hrst, hrun, hi]
  rfl

/-- What IDLE does with a decoded host command is the command's own meaning. -/
theorem runCommand_eq_exec {i : Instr} (hi : i.isCommand = true) (s : State) :
    runCommand Config.cfg i s = exec i s := by
  cases i with
  | nop | srst | csrw | csrr | rdb | rxf | txt => rfl
  | _ => cases hi

theorem exec_command_next {i : Instr} (hi : i.isCommand = true) (s : State) :
    ∃ t, exec i s = .next t := by
  cases i with
  | nop | srst | csrw | csrr | rdb | rxf | txt => exact ⟨_, rfl⟩
  | _ => cases hi

theorem exec_idle_of_empty {s : State} (hcmd : s.env.cmd = []) : exec .idle s = .next s := by
  rw [exec, execIdle, hcmd]

/-- IDLE takes the offered word and runs the command it decodes to. -/
theorem exec_idle_of_command {s : State} {w : Word} {rest : List Word} {i : Instr}
    (hcmd : s.env.cmd = w :: rest) (hi : decodeCommand w = .ok i) :
    exec .idle s = exec i { s with env := { s.env with cmd := rest } } := by
  rw [exec, execIdle, hcmd, ← runCommand_eq_exec (decodeCommand_isCommand hi)]
  simp only [acceptCommand, hi]

/-- Settles O5: in IDLE the phase that runs is the one that takes the command word. -/
theorem stepRunsInstruction : Obligations.StepRunsInstruction := by
  intro s hrst hrun
  refine ⟨fun i hi => step_eq_exec hrst hrun hi, fun w rest i hq hcmd hi => ?_⟩
  have hidle : step s = exec .idle s := step_eq_exec hrst hrun (by rw [hq]; rfl)
  exact hidle.trans (exec_idle_of_command hcmd hi)

/-- Settles O20: what a command word decodes to is a host command, and every host command ends in
a next state. -/
theorem idleRunsOfferedCommand : Obligations.IdleRunsOfferedCommand := by
  intro s
  refine ⟨exec_idle_of_empty, fun w rest i hcmd hi => ?_⟩
  have hcommand := decodeCommand_isCommand hi
  have hruns := exec_idle_of_command hcmd hi
  exact ⟨hcommand, hruns, hruns ▸ exec_command_next hcommand _⟩

/-- Settles O18: with legal state codes RXF is the latching of its operands. -/
theorem rxfBeginsAtGate : Obligations.RxfBeginsAtGate := by
  intro s phyGate phyPost hgate hpost
  have hlegal : ¬(phyGate = Phy.reserved ∨ phyPost = Phy.reserved) := not_or.2 ⟨hgate, hpost⟩
  have hlatches : rxf phyGate phyPost s
      = { s with lat := { gate := phyGate, post := phyPost, items := [] } }.goto Phase.gate :=
    if_neg hlegal
  exact ⟨_, congrArg Host.Outcome.next hlatches, rfl, rfl, rfl, rfl, rfl⟩

/-- Settles O19: TXT only sets SLOT and SEQ. -/
theorem txtBeginsAtTenc : Obligations.TxtBeginsAtTenc :=
  fun s => ⟨{ s with slot := 0 }.goto Phase.tenc, rfl, rfl, rfl, rfl⟩

end Sys2Proof.Machine
end

section
/-! ### The items of an absorbing RXF by position (R67) -/

namespace Sys2Proof.Machine

/-- A latched item where one is. -/
theorem item_eq {s : State} {k : Nat} {x : Code} (h : s.lat.items[k]? = some x) : item s k = x := by
  rw [item, List.getD_eq_getElem?_getD, h]
  rfl

/-- What an input array read off consecutive items holds at each place. -/
theorem map_itemsFrom_getElem? {α : Type} {s : State} {k n i : Nat} {x : Code} (f : Code → α)
    (hi : i < n) (h : s.lat.items[k + i]? = some x) : ((itemsFrom s k n).map f)[i]? = some (f x) := by
  rw [List.getElem?_map, itemsFrom_getElem? s k n i hi, h]
  rfl

theorem inUw_length (c : Config) (s : State)
    (h : s.lat.items.length = 3 + c.U + 2 * c.S + c.T) : (inUw c s).length = c.U := by
  rw [inUw, List.length_map, itemsFrom_length _ _ _ (by omega)]

theorem inTxt_length (c : Config) (s : State)
    (h : s.lat.items.length = 3 + c.U + 2 * c.S + c.T) : (inTxt c s).length = c.T := by
  rw [inTxt, List.length_map, itemsFrom_length _ _ _ (by omega)]

/-- Settles O23: each array is read off consecutive items, one array after the other. -/
theorem streamItemsByPosition : Obligations.StreamItemsByPosition := by
  intro c s hlen x hx
  have hhdr0 : item s 0 = x 0 := item_eq (hx 0 (by omega))
  have hhdr1 : item s 1 = x 1 := item_eq (hx 1 (by omega))
  have hmean : item s 2 = x 2 := item_eq (hx 2 (by omega))
  refine ⟨?_, ?_, ?_, ?_, inUw_length c s hlen, fun i hi => ?_, inSym_length c s hlen,
    fun i hi => ?_, inAmp_length c s hlen, fun i hi => ?_, inTxt_length c s hlen, fun k hk => ?_⟩
  · rw [inNinCur, BitVec.toNat_ofNat, hhdr0]
  · rw [inNinNext, BitVec.toNat_ofNat, hhdr0, Nat.shiftRight_eq_div_pow]
  · rw [inSnrEst, BitVec.toNat_ofNat, hhdr1]
  · rw [inMeanAmp, hmean]
  · rw [beq_eq_decide, ← Nat.testBit_zero]
    exact map_itemsFrom_getElem? _ hi (hx _ (by omega))
  · exact map_itemsFrom_getElem? _ hi (hx _ (by omega))
  · exact map_itemsFrom_getElem? _ hi (hx _ (by omega))
  · rw [beq_eq_decide, ← Nat.testBit_zero]
    exact map_itemsFrom_getElem? _ hk (hx _ (by omega))

end Sys2Proof.Machine
end

section
/-! ### The verdict and its response word (R66, R132 to R135) -/

namespace Sys2Proof.Machine

variable {c : Config} {s : State}

/-! #### The fields of the response word (R66) -/

theorem rxfWord_nout (nout : BitVec 16) (v : Verdict) (decoded : Bool) :
    (rxfWord nout v decoded).extractLsb' 0 16 = nout :=
  BitVec.extractLsb'_append_eq_right

theorem rxfWord_verdict (nout : BitVec 16) (v : Verdict) (decoded : Bool) :
    (rxfWord nout v decoded).extractLsb' 16 3 = v.code := by
  refine (BitVec.extractLsb'_append_eq_of_le (xlo := nout) (by decide)).trans ?_
  exact BitVec.extractLsb'_append_eq_right

/-- Above the verdict the word holds DECODED and zeros. -/
theorem rxfWord_above_verdict (nout : BitVec 16) (v : Verdict) (decoded : Bool) {k n : Nat}
    (hk : 19 ≤ k) : (rxfWord nout v decoded).extractLsb' k n
      = (0#12 ++ BitVec.ofBool decoded).extractLsb' (k - 16 - 3) n := by
  refine (BitVec.extractLsb'_append_eq_of_le (xlo := nout) (by omega)).trans ?_
  exact BitVec.extractLsb'_append_eq_of_le (xlo := v.code) (by omega)

theorem rxfWord_decoded (nout : BitVec 16) (v : Verdict) (decoded : Bool) :
    (rxfWord nout v decoded).getLsbD 19 = decoded := by
  have hfield : (rxfWord nout v decoded).extractLsb' 19 1 = BitVec.ofBool decoded :=
    (rxfWord_above_verdict _ _ _ le_rfl).trans BitVec.extractLsb'_append_eq_right
  simpa using congrArg (BitVec.getLsbD · 0) hfield

theorem rxfWord_zero (nout : BitVec 16) (v : Verdict) (decoded : Bool) :
    (rxfWord nout v decoded).extractLsb' 20 12 = 0 :=
  (rxfWord_above_verdict _ _ _ (by decide)).trans BitVec.extractLsb'_append_eq_left

/-! #### The sync predicate for each state of the physical layer (R132) -/

theorem syncPredicate_searching (h : s.lat.post = Phy.searching) :
    syncPredicate c s s.lat.post = false := by
  rw [h]
  rfl

theorem syncPredicate_trial (h : s.lat.post = Phy.trial) :
    syncPredicate c s s.lat.post = allChecksPass c s := by
  rw [h]
  rfl

theorem syncPredicate_synced (h : s.lat.post = Phy.synced) :
    syncPredicate c s s.lat.post = true := by
  rw [h]
  rfl

theorem allChecksPass_iff : allChecksPass c s = true ↔ s.pcc.toNat = c.NPCHK := beq_iff_eq

/-! #### The outcomes of the verdict (R133, R134) -/

theorem verdictOf_pass (hsync : syncPredicate c s s.lat.post = false) (hsq : s.sqEn = false) :
    verdictOf c s = (.pass, inNinCur s) := by
  simp [verdictOf, hsync, hsq]

theorem verdictOf_muted (hsync : syncPredicate c s s.lat.post = false) (hsq : s.sqEn = true) :
    verdictOf c s = (.muted, 0) := by
  simp [verdictOf, hsync, hsq]

theorem verdictOf_squelched (hsync : syncPredicate c s s.lat.post = true) (hsq : s.sqEn = true)
    (hlow : (inSnrEst s).toInt < s.sqth.toInt) : verdictOf c s = (.muted, 0) := by
  simp [verdictOf, belowThreshold, hsync, hsq, hlow]

theorem verdictOf_good_of_sqOff (hsync : syncPredicate c s s.lat.post = true)
    (hsq : s.sqEn = false) : verdictOf c s = (.good, BitVec.ofNat 16 c.N_SPEECH) := by
  simp [verdictOf, hsync, hsq]

theorem verdictOf_good (hsync : syncPredicate c s s.lat.post = true) (hsq : s.sqEn = true)
    (hlow : ¬(inSnrEst s).toInt < s.sqth.toInt) (hall : allChecksPass c s = true) :
    verdictOf c s = (.good, BitVec.ofNat 16 c.N_SPEECH) := by
  simp [verdictOf, belowThreshold, hsync, hsq, hlow, hall]

theorem verdictOf_marginal (hsync : syncPredicate c s s.lat.post = true) (hsq : s.sqEn = true)
    (hlow : ¬(inSnrEst s).toInt < s.sqth.toInt) (hall : allChecksPass c s = false) :
    verdictOf c s = (.marginal, BitVec.ofNat 16 c.N_SPEECH) := by
  simp [verdictOf, belowThreshold, hsync, hsq, hlow, hall]

/-- The response word VERD sends. -/
def verdWord (c : Config) (s : State) : Word :=
  rxfWord (verdictOf c s).2 (verdictOf c s).1 s.decoded

theorem verd_trace (c : Config) (s : State) :
    (verd c s).trace = s.trace ++ [.response false (verdWord c s)] := rfl

/-- How the verdict stands in the response word. -/
theorem verdWord_answer {v : Verdict} {nout : BitVec 16} (h : verdictOf c s = (v, nout)) :
    (verdWord c s).extractLsb' 16 3 = v.code
      ∧ ((verdWord c s).extractLsb' 0 16).toNat = nout.toNat := by
  rw [verdWord, h]
  exact ⟨rxfWord_verdict .., congrArg BitVec.toNat (rxfWord_nout ..)⟩

/-- A whole frame of samples fits the field of the count (R8). -/
theorem verdWord_answer_speech (hc : c.WF) {v : Verdict}
    (h : verdictOf c s = (v, BitVec.ofNat 16 c.N_SPEECH)) :
    (verdWord c s).extractLsb' 16 3 = v.code
      ∧ ((verdWord c s).extractLsb' 0 16).toNat = c.N_SPEECH := by
  have hfits : (BitVec.ofNat 16 c.N_SPEECH).toNat = c.N_SPEECH :=
    Nat.mod_eq_of_lt (Nat.lt_succ_of_le hc.speech_field)
  obtain ⟨hcode, hnout⟩ := verdWord_answer h
  exact ⟨hcode, hnout.trans hfits⟩

/-- Settles O44: the sync predicate splits the table, then squelch, SNR and parity checks do. -/
theorem verdictTable : Obligations.VerdictTable := by
  intro s
  have hpass (h : s.pcc.toNat = Config.cfg.NPCHK) : allChecksPass Config.cfg s = true :=
    allChecksPass_iff.2 h
  have hfail (h : ¬s.pcc.toNat = Config.cfg.NPCHK) : allChecksPass Config.cfg s = false :=
    Bool.eq_false_iff.2 (mt allChecksPass_iff.1 h)
  have htrial (h : s.lat.post = 1) (hall : s.pcc.toNat = Config.cfg.NPCHK) :
      syncPredicate Config.cfg s s.lat.post = true := (syncPredicate_trial h).trans (hpass hall)
  have htrialFailed (h : s.lat.post = 1) (hno : ¬s.pcc.toNat = Config.cfg.NPCHK) :
      syncPredicate Config.cfg s s.lat.post = false := (syncPredicate_trial h).trans (hfail hno)
  have hspeech {v : Verdict} := verdWord_answer_speech (s := s) (v := v) Config.cfg_wf
  refine ⟨_, verdWord Config.cfg s, rfl, verd_trace Config.cfg s, rfl, rfl,
    verd_frame Config.cfg s, rxfWord_decoded .., rxfWord_zero .., fun h hsq => ?_, fun h hsq => ?_, fun h hno hsq => ?_,
    fun h hno hsq => ?_, fun h hall hsq => ?_, fun h hall hsq hlow => ?_,
    fun h hall hsq hlow => ?_, fun h hsq => ?_, fun h hall hsq hlow => ?_,
    fun h hno hsq hlow => ?_, fun h hsq hlow => ?_⟩
  · exact verdWord_answer (verdictOf_pass (syncPredicate_searching h) hsq)
  · exact verdWord_answer (verdictOf_muted (syncPredicate_searching h) hsq)
  · exact verdWord_answer (verdictOf_pass (htrialFailed h hno) hsq)
  · exact verdWord_answer (verdictOf_muted (htrialFailed h hno) hsq)
  · exact hspeech (verdictOf_good_of_sqOff (htrial h hall) hsq)
  · exact hspeech (verdictOf_good (htrial h hall) hsq hlow (hpass hall))
  · exact verdWord_answer (verdictOf_squelched (htrial h hall) hsq hlow)
  · exact hspeech (verdictOf_good_of_sqOff (syncPredicate_synced h) hsq)
  · exact hspeech (verdictOf_good (syncPredicate_synced h) hsq hlow (hpass hall))
  · exact hspeech (verdictOf_marginal (syncPredicate_synced h) hsq hlow (hfail hno))
  · exact verdWord_answer (verdictOf_squelched (syncPredicate_synced h) hsq hlow)

end Sys2Proof.Machine
end

section
/-! ### The host commands that answer in place: NOP, SRST, CSRW and CSRR (R80 to R83) -/

namespace Sys2Proof.Machine

open Sys2Proof.Claims
open BitVec (extractLsb'_append_eq_left extractLsb'_append_eq_right)

variable {s t : State} {csr : BitVec 8} {value : BitVec 16} {w : Word}

/-! #### The fields of the read views (R31) -/

/-- A field of the high part of a word lies above the whole low part. -/
theorem extractLsb'_above {h l k n : Nat} {hi : BitVec h} {lo : BitVec l} {field : BitVec n}
    (hfield : hi.extractLsb' k n = field) : (hi ++ lo).extractLsb' (k + l) n = field := by
  rw [BitVec.extractLsb'_append_eq_of_le (Nat.le_add_left l k), Nat.add_sub_cancel, hfield]

theorem getLsbD_of_extractLsb' {m k : Nat} {x : BitVec m} {b : Bool}
    (hfield : x.extractLsb' k 1 = BitVec.ofBool b) : x.getLsbD k = b := by
  simpa using congrArg (BitVec.getLsbD · 0) hfield

theorem statusView_fields (s : State) :
    (statusView s).extractLsb' 0 2 = s.phy ∧ (statusView s).getLsbD 2 = s.ilvSynced
      ∧ (statusView s).getLsbD 3 = s.decoded ∧ (statusView s).extractLsb' 4 4 = s.err
      ∧ (statusView s).extractLsb' 8 8 = BitVec.ofNat 8 s.fci
      ∧ (statusView s).extractLsb' 16 16 = 0 :=
  ⟨extractLsb'_append_eq_right,
    getLsbD_of_extractLsb' (extractLsb'_above extractLsb'_append_eq_right),
    getLsbD_of_extractLsb' (extractLsb'_above (extractLsb'_above extractLsb'_append_eq_right)),
    extractLsb'_above (extractLsb'_above (extractLsb'_above extractLsb'_append_eq_right)),
    extractLsb'_above (extractLsb'_above (extractLsb'_above (extractLsb'_above
      extractLsb'_append_eq_right))),
    extractLsb'_above (extractLsb'_above (extractLsb'_above (extractLsb'_above
      extractLsb'_append_eq_left)))⟩

theorem txtstatView_fields (s : State) :
    (txtstatView s).extractLsb' 0 8 = BitVec.ofNat 8 s.txN
      ∧ (txtstatView s).extractLsb' 8 8 = BitVec.ofNat 8 s.txIdx
      ∧ (txtstatView s).getLsbD 16 = s.rxIn
      ∧ (txtstatView s).extractLsb' 17 7 = 0
      ∧ (txtstatView s).extractLsb' 24 8 = BitVec.ofNat 8 s.rxCode.length :=
  ⟨extractLsb'_append_eq_right,
    extractLsb'_above extractLsb'_append_eq_right,
    getLsbD_of_extractLsb' (extractLsb'_above (extractLsb'_above extractLsb'_append_eq_right)),
    extractLsb'_above (extractLsb'_above (extractLsb'_above extractLsb'_append_eq_right)),
    extractLsb'_above (extractLsb'_above (extractLsb'_above extractLsb'_append_eq_left))⟩

/-- The view of each readable index: a register widened with zeros, a counter, or a packed word. -/
theorem csrFields_of_csrView (hview : csrView s csr = some w) : CsrFields s csr w := by
  refine ⟨?ctrl, ?sqth, ?esno, ?cbctx, ?status, ?pcc, ?iter, ?nin, ?uwerr, ?tbits, ?terrs,
    ?tbitsc, ?terrsc, ?txtstat⟩ <;> rintro rfl <;> obtain rfl := Option.some.inj hview
  case status => exact statusView_fields s
  case txtstat => exact txtstatView_fields s
  case tbits | terrs | tbitsc | terrsc => rfl
  case ctrl | sqth | esno | cbctx | pcc | iter | nin | uwerr =>
    exact BitVec.toNat_setWidth_of_le (by decide)

/-! #### What CSRR and CSRW end in (R82, R83) -/

theorem csrr_of_csrView (hview : csrView s csr = some w) : csrr csr s = respond w s := by
  rw [csrr, hview]

theorem csrw_of_csrWritten (hwritten : csrWritten s csr value = some t) :
    csrw csr value s = respond 0 t := by
  rw [csrw, hwritten]

/-- A write of a writable index, as one update of the four registers. -/
theorem csrWritten_eq (s : State) (value : BitVec 16) (hcsr : csr.toNat ≤ 0x03) :
    csrWritten s csr value = some { s with
      ctrl := if csr = 0x00 then value.extractLsb' 0 4 else s.ctrl
      sqth := if csr = 0x01 then value else s.sqth
      esno := if csr = 0x02 then value else s.esno
      cbctx := if csr = 0x03 then value else s.cbctx } := by
  rcases csrWritten_cases s csr value with
    ⟨rfl, hw⟩ | ⟨rfl, hw⟩ | ⟨rfl, hw⟩ | ⟨rfl, hw⟩ | ⟨habove, -⟩
  · exact hw
  · exact hw
  · exact hw
  · exact hw
  · exact absurd hcsr (Nat.not_le.2 habove)

/-! #### The statements -/

/-- Settles O15: a writable index is written, and the response is sent from the written state. -/
theorem csrwWritesItsRegister : Obligations.CsrwWritesItsRegister := by
  intro s csr value hcsr
  have hnext := csrw_of_csrWritten (csrWritten_eq s value hcsr)
  exact ⟨_, congrArg Host.Outcome.next hnext, rfl, rfl, rfl, rfl, rfl, rfl⟩

/-- Settles O16: every index up to 0x0D has a view, whose fields are the registers. -/
theorem csrrReadsItsRegister : Obligations.CsrrReadsItsRegister := by
  intro s csr hcsr
  have hsome : (csrView s csr).isSome = true := (csrView_isSome s csr).trans (decide_eq_true hcsr)
  obtain ⟨w, hview⟩ := Option.isSome_iff_exists.1 hsome
  exact ⟨respond w s, w, congrArg Host.Outcome.next (csrr_of_csrView hview),
    csrFields_of_csrView hview, rfl, rfl⟩

/-- Settles O13: NOP is its response and nothing else. -/
theorem nopOnlyResponds : Obligations.NopOnlyResponds := fun s => ⟨respond 0 s, rfl, rfl, rfl⟩

/-- Settles O14: SRST is the reset state under the outside and the trace of before, then the
response. -/
theorem srstRestoresReset : Obligations.SrstRestoresReset := fun s =>
  ⟨respond 0 (s.sessionReset Config.cfg), rfl, resetValues_resetOn .., rfl, rfl⟩

end Sys2Proof.Machine
end

/-! ## The text codec: patterns, decoder, encoder and the round trip (spec/41_text_codec.md) -/

section
/-! ### The code and the pattern of a character (R90, R91) -/

namespace Sys2Proof.Machine

open Sys2Proof.Claims

variable {c : Config} {ch : Char8} {w : List Bit}

theorem isCodeword_iff (maxLen : Nat) (w : List Bit) :
    isCodeword maxLen w = true ↔ 1 ≤ w.length ∧ w.length ≤ maxLen ∧ w.head? = some true
      ∧ w.getLast? = some true ∧ noDoubleZero w = true := by
  simp [isCodeword, and_assoc]

/-- Each zero of a sequence without two consecutive zeros is followed by something else. -/
theorem noDoubleZero_getElem? {i : Nat} (h : noDoubleZero w = true) (hi : w[i]? = some false) :
    w[i + 1]? ≠ some false := by
  induction w using noDoubleZero.induct generalizing i with
  | case1 rest => simp [noDoubleZero] at h
  | case2 b rest hstart ih =>
    rw [noDoubleZero.eq_2 b rest hstart] at h
    cases i with
    | succ i => exact ih h hi
    | zero =>
      intro hnext
      obtain rfl : b = false := Option.some.inj hi
      cases rest with
      | nil => cases hnext
      | cons b' rest' =>
        obtain rfl : b' = false := Option.some.inj hnext
        exact hstart rest' rfl rfl
  | case3 => cases hi

/-- What the pattern of a character can be (R91). -/
theorem pat_cases (c : Config) (ch : Char8) :
    (∃ w, (ch, w) ∈ c.TXT_TABLE ∧ pat c ch = w ++ [false, false])
      ∨ (∀ w, (ch, w) ∉ c.TXT_TABLE) ∧ pat c ch = [] := by
  rw [pat]
  cases hlook : c.TXT_TABLE.lookup ch with
  | some w => exact .inl ⟨w, lookup_mem hlook, rfl⟩
  | none =>
    refine .inr ⟨fun w hw => ?_, rfl⟩
    simpa using List.lookup_eq_none_iff.1 hlook _ hw

/-- A character has one entry at most (R90). -/
theorem pat_of_mem (hc : c.WF) (hw : (ch, w) ∈ c.TXT_TABLE) : pat c ch = w ++ [false, false] := by
  rcases pat_cases c ch with ⟨w', hw', hpat⟩ | ⟨hnone, -⟩
  · obtain rfl : w = w' :=
      (Prod.ext_iff.1 (List.inj_on_of_nodup_map hc.table_chars hw hw' rfl)).2
    exact hpat
  · exact absurd hw (hnone w)

/-- Inside a codeword no zero follows a zero, and its last bit is 1 (R90, R91). -/
theorem pat_doubleZero (hc : c.WF) {i : Nat} (hi : (pat c ch)[i]? = some false)
    (hnext : (pat c ch)[i + 1]? = some false) : i + 2 = (pat c ch).length := by
  rcases pat_cases c ch with ⟨w, hw, hpat⟩ | ⟨-, hpat⟩ <;> rw [hpat] at hi hnext ⊢
  · obtain ⟨-, -, -, hlast, hzeros⟩ := (isCodeword_iff _ _).1 (hc.table_codewords _ hw)
    rw [List.getLast?_eq_getElem?] at hlast
    have hbound : i + 1 < (w ++ [false, false]).length := (List.getElem?_eq_some_iff.1 hnext).1
    rw [List.length_append] at hbound ⊢
    rcases Nat.lt_trichotomy (i + 1) w.length with hin | hend | hout
    · rw [List.getElem?_append_left (by omega)] at hi hnext
      exact absurd hnext (noDoubleZero_getElem? hzeros hi)
    · rw [List.getElem?_append_left (by omega), show i = w.length - 1 by omega, hlast] at hi
      cases hi
    · simp only [List.length_cons, List.length_nil] at hbound ⊢
      omega
  · cases hi

/-- Settles O37: the entry of a character is its only one, and a codeword fits its bounds. -/
theorem patternOfCharacter : Obligations.PatternOfCharacter := by
  intro c hc ch
  refine ⟨fun w hw => ?_, fun hnone => ?_, fun i => pat_doubleZero hc⟩
  · have hpat := pat_of_mem hc hw
    obtain ⟨hpos, -⟩ := (isCodeword_iff _ _).1 (hc.table_codewords _ hw)
    refine ⟨hpat, ?_, pat_length_le hc ch⟩
    rw [hpat, List.length_append]
    exact Nat.add_le_add_right hpos 2
  · rcases pat_cases c ch with ⟨w, hw, -⟩ | ⟨-, hpat⟩
    · exact absurd hw (hnone w)
    · exact hpat

end Sys2Proof.Machine
end

section
/-! ### The decoder step (R94) and TDEC (R95) -/

namespace Sys2Proof.Machine

open Sys2Proof.Claims

variable {c : Config} {ch : Char8} {code cw : List Bit} {b : Bit}

theorem charOf_eq_some_iff (hc : c.WF) : charOf c cw = some ch ↔ (ch, cw) ∈ c.TXT_TABLE := by
  have of_find {e : Char8 × List Bit} (he : c.TXT_TABLE.find? (·.2 == cw) = some e) :
      e ∈ c.TXT_TABLE ∧ e.2 = cw :=
    ⟨List.mem_of_find?_eq_some he, by simpa using List.find?_some he⟩
  rw [charOf, Option.map_eq_some_iff]
  constructor
  · rintro ⟨e, he, rfl⟩
    obtain ⟨hmem, rfl⟩ := of_find he
    exact hmem
  · intro hmem
    have hsome : (c.TXT_TABLE.find? (·.2 == cw)).isSome = true :=
      List.find?_isSome.2 ⟨_, hmem, beq_self_eq_true cw⟩
    obtain ⟨e, he⟩ := Option.isSome_iff_exists.1 hsome
    obtain ⟨hmem', hcw⟩ := of_find he
    have heq : e = (ch, cw) := List.inj_on_of_nodup_map hc.table_distinct hmem' hmem hcw
    exact ⟨e, he, by rw [heq]⟩

theorem endsInTerminator_append (cw : List Bit) :
    endsInTerminator (cw ++ [false, false]) = true := by
  simp [endsInTerminator]

theorem endsInTerminator_iff (code : List Bit) :
    endsInTerminator code = true ↔ ∃ cw, code = cw ++ [false, false] := by
  constructor
  · intro h
    simp only [endsInTerminator, Bool.and_eq_true, beq_iff_eq] at h
    obtain ⟨-, hdrop⟩ := h
    exact ⟨code.take (code.length - 2), by rw [← hdrop, List.take_append_drop]⟩
  · rintro ⟨cw, rfl⟩
    exact endsInTerminator_append cw

/-- A character starts at its first 1. -/
theorem decStep_start (c : Config) (code : List Bit) :
    decStep c false code true = (true, [true], none) := rfl

/-- Idle zeros are skipped. -/
theorem decStep_idle (c : Config) (code : List Bit) :
    decStep c false code false = (false, [], none) := rfl

theorem decStep_terminator (c : Config) (h : code ++ [b] = cw ++ [false, false]) :
    decStep c true code b = (false, [], charOf c cw) := by
  have hcw : (cw ++ [false, false]).take ((cw ++ [false, false]).length - 2) = cw := by simp
  rw [decStep, if_pos rfl]
  dsimp only
  rw [h, if_pos (endsInTerminator_append cw), hcw]

theorem decStep_overrun (h : ¬∃ cw, code ++ [b] = cw ++ [false, false])
    (hlen : c.TXT_CODE_MAX + 2 ≤ code.length + 1) : decStep c true code b = (false, [], none) := by
  rw [decStep, if_pos rfl]
  dsimp only
  rw [if_neg (mt (endsInTerminator_iff _).1 h), if_pos (by simpa using hlen)]

theorem decStep_keep (h : ¬∃ cw, code ++ [b] = cw ++ [false, false])
    (hlen : code.length + 1 < c.TXT_CODE_MAX + 2) :
    decStep c true code b = (true, code ++ [b], none) := by
  rw [decStep, if_pos rfl]
  dsimp only
  rw [if_neg (mt (endsInTerminator_iff _).1 h), if_neg (by simpa using hlen)]

/-- Settles O38: one lemma for each branch of the step; a codeword is that of one character. -/
theorem decoderStepCases : Obligations.DecoderStepCases := fun c hc code _ =>
  ⟨decStep_start c code, decStep_idle c code,
    fun cw hterm => ⟨charOf c cw, decStep_terminator c hterm, fun _ => charOf_eq_some_iff hc⟩,
    fun hopen => ⟨decStep_overrun hopen, decStep_keep hopen⟩⟩

/-! #### TDEC -/

variable {s : State}

theorem slotBit_eq {k : Nat} (h : (inTxt c s)[k]? = some b) : slotBit c s k = b := by
  rw [slotBit, List.getD_eq_getElem?_getD, h]
  rfl

/-- TDEC on a slot runs the decoder step and sends what it delivers. -/
theorem tdec_of_slot (h : s.slot < c.T) :
    (tdec c s).rxIn = (decStep c s.rxIn s.rxCode (slotBit c s s.slot)).1
      ∧ (tdec c s).rxCode = (decStep c s.rxIn s.rxCode (slotBit c s s.slot)).2.1
      ∧ (tdec c s).trace = s.trace ++ (delivered c s).toList.map (.sinkCall · s.cbctx) := by
  rw [tdec, if_pos h]
  dsimp only
  split <;> exact ⟨rfl, rfl, rfl⟩

theorem tdec_of_no_slot (h : ¬s.slot < c.T) : tdec c s = { s with slot := 0, seq := Phase.uwer } :=
  if_neg h

theorem delivered_of_enabled (h : s.sinkEn = true) :
    delivered c s = (decStep c s.rxIn s.rxCode (slotBit c s s.slot)).2.2 := if_pos h

/-- Nothing is delivered when no character is complete or no sink is enabled. -/
theorem delivered_eq_none
    (h : (decStep c s.rxIn s.rxCode (slotBit c s s.slot)).2.2 = none ∨ s.sinkEn = false) :
    delivered c s = none := by
  by_cases hsink : s.sinkEn = true
  · exact (delivered_of_enabled hsink).trans (h.resolve_right (by simp [hsink]))
  · exact if_neg hsink

/-- Settles O39: a slot runs the decoder step and goes on as R95 says; without one the phase only
ends. -/
theorem tdecDecodesItsSlot : Obligations.TdecDecodesItsSlot := by
  intro s
  refine ⟨tdec Config.cfg s, rfl, fun hslot b hb => ?_, fun hmore => ?_, fun hlast => ?_,
    fun hnone => ?_, tdec_frame Config.cfg s⟩
  · obtain ⟨hin, hcode, htrace⟩ := tdec_of_slot hslot
    obtain rfl := slotBit_eq hb
    refine ⟨hin, hcode, fun ch hch hsink => ?_, fun hquiet => ?_⟩
    · rw [htrace, delivered_of_enabled hsink, hch]
      rfl
    · rw [htrace, delivered_eq_none hquiet]
      exact List.append_nil _
  · exact ((tdec_next Config.cfg (by omega)).1 hmore).symm
  · by_cases hslot : s.slot < Config.cfg.T
    · exact ((tdec_next Config.cfg hslot).2 (Nat.not_lt.2 hlast)).symm
    · rw [tdec_of_no_slot hslot]
      exact ⟨rfl, rfl⟩
  · rw [tdec_of_no_slot (Nat.not_lt.2 hnone)]
    exact ⟨rfl, rfl, rfl⟩

end Sys2Proof.Machine
end

section
/-! ### A slot of the encoder (R92, R93) and TENC -/

namespace Sys2Proof.Machine

open Sys2Proof.Claims

variable {c : Config} {s : State} {b : Bit}

theorem emitBit_idle (h : s.txN = 0) :
    emitBit s = { s with trace := s.trace ++ [.textBit false] } := if_pos h

theorem emitBit_pending (hn : 0 < s.txN) (hb : s.txBits[s.txIdx]? = some b) :
    emitBit s =
      { s with txIdx := s.txIdx + 1, txN := s.txN - 1, trace := s.trace ++ [.textBit b] } := by
  rw [emitBit, if_neg (by omega), List.getD_eq_getElem?_getD, hb]
  rfl

theorem encodeSlot_of_fetchChar {s1 : State} (h : fetchChar c s = some s1) :
    encodeSlot c s = emitBit s1 := by
  rw [encodeSlot, h]

/-- A pending bit goes out without a fetch. -/
theorem encodeSlot_pending (hn : 0 < s.txN) (hb : s.txBits[s.txIdx]? = some b) :
    encodeSlot c s =
      { s with txIdx := s.txIdx + 1, txN := s.txN - 1, trace := s.trace ++ [.textBit b] } :=
  (encodeSlot_of_fetchChar (fetchChar_of_not_asking c (by omega))).trans (emitBit_pending hn hb)

theorem encodeSlot_source_off (hn : s.txN = 0) (hoff : s.srcEn = false) :
    encodeSlot c s = { s with trace := s.trace ++ [.textBit false] } :=
  (encodeSlot_of_fetchChar (fetchChar_of_not_asking c (by simp [hoff]))).trans (emitBit_idle hn)

/-- An answer without a pattern is taken and leaves the slot idle. -/
theorem encodeSlot_no_pattern {a : Option Char8} {rest : List (Option Char8)} (hn : s.txN = 0)
    (hsrc : s.srcEn = true) (hans : s.env.txc = a :: rest) (hpat : a.elim [] (pat c) = []) :
    encodeSlot c s =
      { s with
        env := { s.env with txc := rest }
        trace := s.trace ++ [.sourceCall s.cbctx a, .textBit false] } := by
  rw [encodeSlot_of_fetchChar (fetchChar_of_answer c hn hsrc hans), hpat, loadPattern, if_pos rfl,
    emitBit_idle]
  · simp [State.send]
  · exact hn

/-- A fetched character's first bit goes out in the slot that fetched it. -/
theorem encodeSlot_fetched {ch : Char8} {rest : List (Option Char8)} {more : List Bit}
    (hn : s.txN = 0) (hsrc : s.srcEn = true) (hans : s.env.txc = some ch :: rest)
    (hpat : pat c ch = b :: more) :
    encodeSlot c s =
      { s with
        env := { s.env with txc := rest }
        txBits := pat c ch ++ s.txBits.drop (pat c ch).length
        txIdx := 1
        txN := more.length
        trace := s.trace ++ [.sourceCall s.cbctx (some ch), .textBit b] } := by
  rw [encodeSlot_of_fetchChar (fetchChar_of_answer c hn hsrc hans), Option.elim_some, hpat,
    loadPattern, if_neg (List.cons_ne_nil b more), emitBit_pending (Nat.succ_pos _) rfl]
  simp [State.send]

/-- Unless it waits for the source, TENC on a slot is the slot's bit and the next line of R93. -/
theorem tenc_eq_slotEnds (hslot : s.slot < c.D * c.T)
    (hrun : ¬(s.txN = 0 ∧ s.srcEn = true ∧ s.env.txc = [])) :
    tenc c s = slotEnds c (encodeSlot c s) := by
  obtain ⟨s1, hf⟩ : ∃ s1, fetchChar c s = some s1 := by
    rcases fetchChar_cases c s with ⟨-, hf⟩ | ⟨hn, hsrc, hans, -⟩ | ⟨_, _, -, -, -, hf⟩
    · exact ⟨_, hf⟩
    · exact absurd ⟨hn, hsrc, hans⟩ hrun
    · exact ⟨_, hf⟩
  rw [tenc, if_pos hslot, hf, encodeSlot_of_fetchChar hf]
  rfl

theorem tenc_waits (hn : s.txN = 0) (hsrc : s.srcEn = true) (hans : s.env.txc = [])
    (hslot : s.slot < c.D * c.T) : tenc c s = s := by
  rw [tenc, if_pos hslot, fetchChar_of_no_answer c hn hsrc hans]

theorem tenc_of_no_slot (h : c.D * c.T ≤ s.slot) : tenc c s = endTxt s := if_neg (Nat.not_lt.2 h)

/-- Settles O40: one lemma for each thing a slot can do, and the next line of R93 once. -/
theorem tencFillsItsSlot : Obligations.TencFillsItsSlot := by
  intro s
  refine ⟨tenc Config.cfg s, rfl, fun hslot => ⟨?pending, ?off, ?waits, ?noPattern, ?fetched⟩,
    tenc_of_no_slot⟩
  case pending =>
    intro hn b hb
    rw [tenc_eq_slotEnds hslot (by omega), encodeSlot_pending hn hb]
  case off =>
    intro hn hctrl
    have hoff : s.srcEn = false := hctrl
    rw [tenc_eq_slotEnds hslot (by simp [hoff]), encodeSlot_source_off hn hoff]
  case waits => exact fun hn hsrc hans => tenc_waits hn hsrc hans hslot
  case noPattern =>
    intro a rest hn hsrc hans hempty
    have hpat : a.elim [] (pat Config.cfg) = [] := by
      rcases hempty with rfl | ⟨ch, rfl, hch⟩
      · rfl
      · exact hch
    rw [tenc_eq_slotEnds hslot (by simp [hans]), encodeSlot_no_pattern hn hsrc hans hpat]
  case fetched =>
    intro ch rest b more hn hsrc hans hpat
    rw [tenc_eq_slotEnds hslot (by simp [hans]), encodeSlot_fetched hn hsrc hans hpat]

end Sys2Proof.Machine
end

section
/-! ### The decoder on a bit stream (R94, R97) -/

namespace Sys2Proof.Machine

open Sys2Proof.Claims

variable {c : Config} {ch : Char8} {st st1 st2 : Bool × List Bit} {bits bits' : List Bit}
  {chars chars' : List Char8}

/-- From decoder state `st` the bits yield `chars` and leave `st'`. -/
structure Decodes (c : Config) (st : Bool × List Bit) (bits : List Bit) (chars : List Char8)
    (st' : Bool × List Bit) : Prop where
  yields : decodeStream c st bits = chars
  ends : decoderAfter c st bits = st'

theorem Decodes.nil (c : Config) (st : Bool × List Bit) : Decodes c st [] [] st := ⟨rfl, rfl⟩

theorem Decodes.step {rxIn rxIn' : Bool} {code code' : List Bit} {b : Bit} {out : Option Char8}
    (h : decStep c rxIn code b = (rxIn', code', out)) :
    Decodes c (rxIn, code) [b] out.toList (rxIn', code') := by
  constructor
  · simp only [decodeStream, h, List.append_nil]
  · simp only [decoderAfter, List.foldl_cons, List.foldl_nil, h]

theorem Decodes.append (h : Decodes c st bits chars st1) (h' : Decodes c st1 bits' chars' st2) :
    Decodes c st (bits ++ bits') (chars ++ chars') st2 := by
  obtain ⟨rfl, rfl⟩ := h
  obtain ⟨rfl, rfl⟩ := h'
  refine ⟨?_, List.foldl_append⟩
  induction bits generalizing st with
  | nil => rfl
  | cons b bits ih =>
    rw [List.cons_append, decodeStream, ih, decodeStream, List.append_assoc]
    rfl

/-- A stream decodes alike however it is cut into frames. -/
theorem decodeFrames_eq (c : Config) (st : Bool × List Bit) (frames : List (List Bit)) :
    decodeFrames c st frames = decodeStream c st frames.flatten := by
  induction frames generalizing st with
  | nil => rfl
  | cons f frames ih =>
    rw [decodeFrames, ih, List.flatten_cons]
    exact (Decodes.append ⟨rfl, rfl⟩ ⟨rfl, rfl⟩).yields.symm

theorem decodes_zeros (c : Config) (n : Nat) :
    Decodes c (false, []) (List.replicate n false) [] (false, []) := by
  induction n with
  | zero => exact .nil c _
  | succ n ih => exact (Decodes.step (decStep_idle c [])).append ih

/-- No proper part of a pattern ends in a terminator (R91). -/
theorem pat_take_open (hc : c.WF) {n : Nat} (hn : n < (pat c ch).length) :
    ¬∃ cw, (pat c ch).take n = cw ++ [false, false] := by
  rintro ⟨cw, hcw⟩
  have hsplit : pat c ch = cw ++ [false, false] ++ (pat c ch).drop n := by
    rw [← hcw, List.take_append_drop]
  have hends : cw.length + 2 = (pat c ch).length :=
    pat_doubleZero hc (by rw [hsplit]; simp) (by rw [hsplit]; simp)
  have hlen : ((pat c ch).take n).length = cw.length + 2 := by rw [hcw, List.length_append]; rfl
  rw [List.length_take] at hlen
  omega

/-- A proper part of a pattern is kept in RX_CODE: it starts with 1, has no terminator, and is
shorter than the longest pattern. -/
theorem decodes_pat_take (hc : c.WF) {n : Nat} (hn : n + 1 < (pat c ch).length) :
    Decodes c (false, []) ((pat c ch).take (n + 1)) [] (true, (pat c ch).take (n + 1)) := by
  induction n with
  | zero =>
    have hstart : (pat c ch).take 1 = [true] := by
      rcases pat_cases c ch with ⟨w, hw, hpat⟩ | ⟨-, hpat⟩
      · obtain ⟨-, -, hhead, -⟩ := (isCodeword_iff _ _).1 (hc.table_codewords _ hw)
        obtain ⟨w', rfl⟩ := List.head?_eq_some_iff.1 hhead
        rw [hpat]
        rfl
      · simp [hpat] at hn
    rw [hstart]
    exact .step (decStep_start c [])
  | succ n ih =>
    obtain ⟨b, hb⟩ : ∃ b, (pat c ch)[n + 1]? = some b := ⟨_, List.getElem?_eq_getElem (by omega)⟩
    have htake : (pat c ch).take (n + 2) = (pat c ch).take (n + 1) ++ [b] := by
      rw [List.take_add_one, hb]
      rfl
    have hkeep : decStep c true ((pat c ch).take (n + 1)) b
        = (true, (pat c ch).take (n + 1) ++ [b], none) := by
      refine decStep_keep (htake ▸ pat_take_open hc hn) ?_
      have := pat_length_le hc ch
      rw [List.length_take]
      omega
    rw [htake]
    exact (ih (by omega)).append (.step hkeep)

/-- The pattern of a character yields the character and leaves the decoder idle. -/
theorem decodes_pat (hc : c.WF) (hpat : pat c ch ≠ []) :
    Decodes c (false, []) (pat c ch) [ch] (false, []) := by
  rcases pat_cases c ch with ⟨w, hw, hform⟩ | ⟨-, hempty⟩
  · have hterm : (w ++ [false]) ++ [false] = w ++ [false, false] := List.append_assoc ..
    have hinside := decodes_pat_take hc (ch := ch) (n := w.length) (by simp [hform])
    have htake : (pat c ch).take (w.length + 1) = w ++ [false] := by simp [hform, List.take_append]
    have hlast := decStep_terminator c hterm
    rw [(charOf_eq_some_iff hc).2 hw] at hlast
    rw [htake] at hinside
    rw [hform, ← hterm]
    exact hinside.append (.step hlast)
  · exact absurd hempty hpat

theorem decodes_text (hc : c.WF) (chars : List Char8) (hpat : ∀ ch ∈ chars, pat c ch ≠ []) :
    Decodes c (false, []) (chars.flatMap (pat c)) chars (false, []) := by
  induction chars with
  | nil => exact .nil c _
  | cons ch chars ih =>
    obtain ⟨hch, hrest⟩ := List.forall_mem_cons.1 hpat
    exact (decodes_pat hc hch).append (ih hrest)

/-- Settles O41: a zero yields nothing and leaves an idle decoder idle. -/
theorem idleStreamStaysSilent : Obligations.IdleStreamStaysSilent := fun c n =>
  ⟨(decodes_zeros c n).yields, (decodes_zeros c n).ends⟩

end Sys2Proof.Machine
end

section
/-! ### The encoder's bit stream and the round trip (R93, R96) -/

namespace Sys2Proof.Machine

open Sys2Proof.Claims

variable {c : Config} {s t u : State} {bits bits' : List Bit}

/-- As many slots as there are bits lead from `s` to `t` and send these bits. -/
structure Emits (c : Config) (s : State) (bits : List Bit) (t : State) : Prop where
  run : (encodeSlot c)^[bits.length] s = t
  sent : ∃ es, t.trace = s.trace ++ es ∧ textBits es = bits

theorem Emits.nil (c : Config) (s : State) : Emits c s [] s := ⟨rfl, [], by simp, rfl⟩

theorem Emits.append (h : Emits c s bits t) (h' : Emits c t bits' u) :
    Emits c s (bits ++ bits') u := by
  obtain ⟨rfl, es, htrace, rfl⟩ := h
  obtain ⟨rfl, es', htrace', rfl⟩ := h'
  refine ⟨?_, es ++ es', by rw [htrace', htrace, List.append_assoc], List.filterMap_append⟩
  rw [List.length_append, Nat.add_comm, Function.iterate_add_apply]

theorem Emits.slot {b : Bit} {es : List Event} (htrace : (encodeSlot c s).trace = s.trace ++ es)
    (hes : textBits es = [b]) : Emits c s [b] (encodeSlot c s) := ⟨rfl, es, htrace, hes⟩

theorem Emits.textBits_eq (h : Emits c s bits t) :
    textBits (((encodeSlot c)^[bits.length] s).trace.drop s.trace.length) = bits := by
  obtain ⟨es, htrace, hes⟩ := h.sent
  rw [h.run, htrace, List.drop_left, hes]

/-- The next slot asks an enabled source, whose coming answers are these. -/
structure AsksSource (s : State) (answers : List (Option Char8)) : Prop where
  no_pending : s.txN = 0
  enabled : s.srcEn = true
  queued : s.env.txc = answers

/-- The pending bits go out one by one, and then the source is asked. -/
theorem emits_pending {answers : List (Option Char8)} (hn : s.txN = bits.length)
    (hbits : bits <+: s.txBits.drop s.txIdx) (hsrc : s.srcEn = true) (hans : s.env.txc = answers) :
    ∃ t, Emits c s bits t ∧ AsksSource t answers := by
  induction bits generalizing s with
  | nil => exact ⟨s, .nil c s, hn, hsrc, hans⟩
  | cons b bits ih =>
    obtain ⟨rest, hrest⟩ := hbits
    have hb : s.txBits[s.txIdx]? = some b := by
      rw [← Nat.add_zero s.txIdx, ← List.getElem?_drop, ← hrest]
      rfl
    have hslot := encodeSlot_pending (c := c) (by simp [hn]) hb
    have hnext : bits <+: s.txBits.drop (s.txIdx + 1) := by
      refine ⟨rest, ?_⟩
      rw [← List.tail_drop, ← hrest]
      rfl
    obtain ⟨t, hemits, hasks⟩ := ih (s := encodeSlot c s) (by simp [hslot, hn])
      (by rw [hslot]; exact hnext) (by rw [hslot]; exact hsrc) (by rw [hslot]; exact hans)
    have hfirst : Emits c s [b] (encodeSlot c s) := .slot (by rw [hslot]) rfl
    exact ⟨t, hfirst.append hemits, hasks⟩

/-- A fetched character's pattern goes out whole before the source is asked again. -/
theorem emits_pat {ch : Char8} {answers : List (Option Char8)}
    (h : AsksSource s (some ch :: answers)) (hpat : pat c ch ≠ []) :
    ∃ t, Emits c s (pat c ch) t ∧ AsksSource t answers := by
  obtain ⟨b, more, hform⟩ := List.exists_cons_of_ne_nil hpat
  obtain ⟨hn, hsrc, hans⟩ := h
  have hslot := encodeSlot_fetched hn hsrc hans hform
  obtain ⟨t, hemits, hasks⟩ := emits_pending (c := c) (s := encodeSlot c s) (bits := more)
    (answers := answers) (by rw [hslot]) (by simp [hslot, hform]) (by rw [hslot]; exact hsrc)
    (by rw [hslot])
  have hfirst : Emits c s [b] (encodeSlot c s) := .slot (by rw [hslot]) rfl
  exact ⟨t, hform ▸ hfirst.append hemits, hasks⟩

theorem emits_text (chars : List Char8) {answers : List (Option Char8)}
    (h : AsksSource s (chars.map some ++ answers)) (hpat : ∀ ch ∈ chars, pat c ch ≠ []) :
    ∃ t, Emits c s (chars.flatMap (pat c)) t ∧ AsksSource t answers := by
  induction chars generalizing s with
  | nil => exact ⟨s, .nil c s, h⟩
  | cons ch chars ih =>
    obtain ⟨hch, hrest⟩ := List.forall_mem_cons.1 hpat
    obtain ⟨t, hemits, hasks⟩ := emits_pat h hch
    obtain ⟨u, hemits', hasks'⟩ := ih hasks hrest
    exact ⟨u, hemits.append hemits', hasks'⟩

/-- A source without a character leaves idle slots, whose bits are zeros. -/
theorem emits_zeros (c : Config) (n : Nat) (h : AsksSource s (List.replicate n none)) :
    ∃ t, Emits c s (List.replicate n false) t := by
  induction n generalizing s with
  | zero => exact ⟨s, .nil c s⟩
  | succ n ih =>
    obtain ⟨hn, hsrc, hans⟩ := h
    have hslot := encodeSlot_no_pattern (c := c) hn hsrc hans rfl
    obtain ⟨t, hemits⟩ := ih (s := encodeSlot c s)
      ⟨by rw [hslot]; exact hn, by rw [hslot]; exact hsrc, by rw [hslot]⟩
    have hfirst : Emits c s [false] (encodeSlot c s) := .slot (by rw [hslot]) rfl
    exact ⟨t, hfirst.append hemits⟩

/-- Settles O42: the emitted stream is the patterns in order and then zeros; the decoder gives a
character for each pattern, nothing for the zeros, and does not see the frames. -/
theorem textRoundTrip : Obligations.TextRoundTrip := by
  intro c hc s chars idle n frames hpat hn hsrc _ hans hslots hframes
  obtain ⟨t, hemits, hasks⟩ := emits_text chars (c := c) ⟨hn, hsrc, hans⟩ hpat
  obtain ⟨u, hzeros⟩ := emits_zeros c idle hasks
  have hlen : (chars.flatMap (pat c) ++ List.replicate idle false).length = n := by
    rw [List.length_append, List.length_flatMap, List.length_replicate, hslots]
  have hstream : frames.flatten = chars.flatMap (pat c) ++ List.replicate idle false := by
    rw [hframes, ← hlen]
    exact (hemits.append hzeros).textBits_eq
  refine ⟨hstream ▸ hlen, ?_⟩
  rw [decodeFrames_eq, hstream, ((decodes_text hc chars hpat).append (decodes_zeros c idle)).yields,
    List.append_nil]

end Sys2Proof.Machine
end

/-! ## The receive window: GATE, SHAP, the deinterleaved view and the age of its frames
(spec/42_rx_window.md) -/

section
/-! ### GATE (R101) -/

namespace Sys2Proof.Machine

variable {c : Config} {s : State}

/-- What GATE has once both headers are in: its items, and the per-call flags cleared. -/
def headersIn (c : Config) (s : State) : State :=
  { takeItems c s with uwerr := 0, decoded := false }

/-- GATE waits, before or after its headers, or goes to SHAP, or drops sync and goes to ADV. -/
theorem gate_cases (c : Config) (s : State) :
    gate c s = takeItems c s ∨ gate c s = headersIn c s
      ∨ gate c s = (headersIn c s).goto Phase.shap
      ∨ gate c s = (headersIn c s).dropSync.goto Phase.adv := by
  rw [gate]
  dsimp only
  split
  · exact .inl rfl
  · split
    · exact .inr (.inr (.inr rfl))
    · split
      · exact .inr (.inl rfl)
      · exact .inr (.inr (.inl rfl))

/-- With the rest of its items queued GATE does not wait. -/
theorem gate_of_queued (hgot : s.lat.items.length ≤ neededItems c s.lat.gate)
    (hdin : neededItems c s.lat.gate ≤ s.lat.items.length + s.env.din.length) :
    gate c s = if s.lat.gate = Phy.searching then (headersIn c s).dropSync.goto Phase.adv
      else (headersIn c s).goto Phase.shap := by
  have hall : (takeItems c s).lat.items.length = neededItems c s.lat.gate := by
    simp only [takeItems_lat, List.length_append, List.length_take]
    omega
  have hheaders : ¬(takeItems c s).lat.items.length < 2 := by
    have := neededItems_ge c s.lat.gate
    omega
  rw [gate, if_neg hheaders]
  exact if_congr Iff.rfl rfl (if_neg (Nat.not_lt.2 hall.ge))

/-- Settles O21: with nothing to wait for, GATE is its branch on the physical-layer state. -/
theorem gateTakesItemsAndBranches : Obligations.GateTakesItemsAndBranches := by
  intro s n missing hgot hdin
  have hgate := gate_of_queued (c := Config.cfg) (Nat.le_of_lt hgot) hdin
  by_cases hsearch : s.lat.gate = Phy.searching
  · rw [if_pos hsearch] at hgate
    exact ⟨_, congrArg Host.Outcome.next hgate, rfl, rfl, rfl, rfl,
      fun _ => ⟨rfl, rfl, rfl, rfl, rfl⟩, fun hne => absurd hsearch hne, rfl⟩
  · rw [if_neg hsearch] at hgate
    exact ⟨_, congrArg Host.Outcome.next hgate, rfl, rfl, rfl, rfl,
      fun heq => absurd heq hsearch, fun _ => ⟨rfl, rfl, rfl, rfl, rfl⟩, rfl⟩

end Sys2Proof.Machine
end

section
/-! ### SHAP, and the window after the frames of a codeword batch (R102, R105) -/

namespace Sys2Proof.Machine

variable {c : Config} {window frame : List Code}

/-- An element of the old window stands one frame earlier. -/
theorem shiftAppend_getElem?_old (hlen : window.length = c.N) {i : Nat} (hi : i + c.S < c.N) :
    (shiftAppend c window frame)[i]? = window[i + c.S]? := by
  rw [shiftAppend, List.getElem?_append_left (by rw [List.length_drop]; omega),
    List.getElem?_drop, Nat.add_comm]

/-- The tail of the window is the new frame. -/
theorem shiftAppend_getElem?_new (hlen : window.length = c.N) (i : Nat) :
    (shiftAppend c window frame)[c.N - c.S + i]? = frame[i]? := by
  have hkept : (window.drop c.S).length = c.N - c.S := by rw [List.length_drop, hlen]
  rw [shiftAppend, List.getElem?_append_right (by omega), hkept, Nat.add_sub_cancel_left]

/-- Settles O24: each half of the window by the rule of its place. -/
theorem shapShiftsAndAppends : Obligations.ShapShiftsAndAppends := by
  intro s hsym hamp hitems
  have hD := Config.cfg_wf.D_pos
  exact ⟨shap Config.cfg s, rfl,
    shiftAppend_length _ hD _ _ hsym (inSym_length _ s hitems),
    shiftAppend_length _ hD _ _ hamp (inAmp_length _ s hitems),
    fun i hi => ⟨shiftAppend_getElem?_old hsym hi, shiftAppend_getElem?_old hamp hi⟩,
    fun i _ => ⟨shiftAppend_getElem?_new hsym i, shiftAppend_getElem?_new hamp i⟩,
    rfl, shap_frame Config.cfg s⟩

/-- The last `m` elements of a whole window are `il 0` to `il (m - 1)`. -/
def EndsWith (c : Config) (window : List Code) (il : Nat → Code) (m : Nat) : Prop :=
  window.length = c.N ∧ ∀ p < m, window[c.N - m + p]? = some (il p)

/-- The next frame of the sequence makes the known tail one frame longer. -/
theorem EndsWith.shiftAppend (hc : c.WF) {il : Nat → Code} {m : Nat}
    (h : EndsWith c window il m) (hm : m + c.S ≤ c.N) (hlen : frame.length = c.S)
    (hframe : ∀ i < c.S, frame[i]? = some (il (m + i))) :
    EndsWith c (shiftAppend c window frame) il (m + c.S) := by
  obtain ⟨hwindow, htail⟩ := h
  refine ⟨shiftAppend_length c hc.D_pos _ _ hwindow hlen, fun p hp => ?_⟩
  by_cases hold : p < m
  · rw [shiftAppend_getElem?_old hwindow (by omega), ← htail p hold]
    congr 1
    omega
  · have hplace : c.N - (m + c.S) + p = c.N - c.S + (p - m) := by omega
    rw [hplace, shiftAppend_getElem?_new hwindow, hframe _ (by omega),
      Nat.add_sub_cancel' (by omega)]

/-- After frames 0 to `f` of an interleaved sequence the window ends with them. -/
theorem endsWith_absorbed (hc : c.WF) {u v : Nat → State} {il : Nat → Code}
    (hwindow : (u 0).winSym.length = c.N) (habsorb : ∀ f < c.D, v f = shap c (u f))
    (hnext : ∀ f, f + 1 < c.D → (u (f + 1)).winSym = (v f).winSym)
    (hlen : ∀ f < c.D, (inSym c (u f)).length = c.S)
    (hframe : ∀ f < c.D, ∀ i < c.S, (inSym c (u f))[i]? = some (il (f * c.S + i)))
    (f : Nat) (hf : f < c.D) : EndsWith c (v f).winSym il ((f + 1) * c.S) := by
  have hroom : f * c.S + c.S ≤ c.N := by
    rw [← Nat.succ_mul]
    exact Nat.mul_le_mul_right _ hf
  have before : EndsWith c (u f).winSym il (f * c.S) := by
    cases f with
    | zero => exact ⟨hwindow, fun p hp => absurd hp (by omega)⟩
    | succ f =>
      rw [hnext f hf]
      exact endsWith_absorbed hc hwindow habsorb hnext hlen hframe f (by omega)
  rw [habsorb f hf, Nat.succ_mul]
  exact before.shiftAppend hc hroom (hlen f hf) (hframe f hf)

/-- Settles O25: after the `D` frames the window is the interleaved sequence, which is read through
PI. -/
theorem deinterleaverUndoesInterleaver : Obligations.DeinterleaverUndoesInterleaver := by
  intro u v cw il hwindow habsorb hnext hlen hframe hcw k hk
  have hD : Config.cfg.D - 1 + 1 = Config.cfg.D := Nat.sub_add_cancel Config.cfg_wf.D_pos
  obtain ⟨-, hwhole⟩ := endsWith_absorbed Config.cfg_wf hwindow
    (fun f hf => (next_inj (habsorb f hf)).symm) hnext hlen hframe (Config.cfg.D - 1) (by omega)
  have hread := hwhole (Config.cfg.PI k) (by rw [hD]; exact Config.cfg_wf.pi_lt k hk)
  rw [hD, ← Config.N, Nat.sub_self, Nat.zero_add] at hread
  rw [deSym, memRead, List.getD_eq_getElem?_getD, hread, ← hcw k hk]
  rfl

end Sys2Proof.Machine
end

section
/-! ### What `S2L` and `DEC` are given for a sub-frame (R104, R121, R122) -/

namespace Sys2Proof.Machine

variable {c : Config} {s : State}

/-- A read within the space reads the element. -/
theorem some_memRead {space : List Code} {i : Nat} (hi : i < space.length) :
    some (memRead space i) = space[i]? := by
  rw [memRead, List.getD_eq_getElem?_getD, List.getElem?_eq_getElem hi]
  rfl

/-- The places of a sub-frame lie within the window, and PI keeps them there. -/
theorem pi_subFrame_lt (hc : c.WF) {j i : Nat} (hj : j < c.D) (hi : i < c.S) :
    c.PI (j * c.S + i) < c.N := by
  refine hc.pi_lt _ (Nat.lt_of_lt_of_le (Nat.add_lt_add_left hi _) ?_)
  rw [← Nat.succ_mul]
  exact Nat.mul_le_mul_right _ hj

theorem subSym_length (c : Config) (s : State) (j : Nat) : (subSym c s j).length = c.S := by
  rw [subSym, List.length_map, List.length_range]

theorem subAmp_length (c : Config) (s : State) (j : Nat) : (subAmp c s j).length = c.S := by
  rw [subAmp, List.length_map, List.length_range]

theorem subSym_getElem? (hc : c.WF) (hlen : s.winSym.length = c.N) {j i : Nat} (hj : j < c.D)
    (hi : i < c.S) : (subSym c s j)[i]? = s.winSym[c.PI (j * c.S + i)]? := by
  rw [subSym, List.getElem?_map, List.getElem?_range hi]
  exact some_memRead (hlen ▸ pi_subFrame_lt hc hj hi)

theorem subAmp_getElem? (hc : c.WF) (hlen : s.winAmp.length = c.N) {j i : Nat} (hj : j < c.D)
    (hi : i < c.S) : (subAmp c s j)[i]? = s.winAmp[c.PI (j * c.S + i)]? := by
  rw [subAmp, List.getElem?_map, List.getElem?_range hi]
  exact some_memRead (hlen ▸ pi_subFrame_lt hc hj hi)

/-- The padded array has the decoder's `NC` LLRs (R122, R123). -/
theorem pad_length (hc : c.WF) {llr : List Code} (hlen : llr.length = c.B) :
    (pad c llr).length = c.NC := by
  have hbits : c.B + (c.ND - c.K) = c.NC := hc.coded_bits
  have hdata := hc.data_capacity
  have hcoded := hc.coded_capacity
  rw [pad]
  split
  · omega
  · simp only [List.length_append, List.length_take, List.length_drop, List.length_replicate,
      Config.PADN]
    omega

/-- Settles O33: the operands of the two collaborators are the sub-frame read through PI. -/
theorem subFrameReadsThroughPermutation : Obligations.SubFrameReadsThroughPermutation := by
  intro c hc s hsym hamp j hj
  exact ⟨subSym c s j, subAmp c s j, subSym_length c s j, subAmp_length c s j,
    fun i hi => ⟨subSym_getElem? hc hsym hj hi, subAmp_getElem? hc hamp hj hi⟩,
    pad_length hc (hc.s2l_length _ _ _ _), rfl, rfl⟩

end Sys2Proof.Machine
end

section
/-! ### A receive call with the physical layer searching throughout (R101, R114, R134) -/

namespace Sys2Proof.Machine

open Sys2Proof.Claims

variable {s : State}

/-- A first step, and the run from where it leads. -/
theorem run_succ (M : Host.Core) {s t : M.State} (k : Nat) (h : M.step s = .next t) :
    M.run (k + 1) s = M.run k t := by
  rw [Host.Core.run, h]

/-- While the outside accepts everything a step runs the phase the sequencer stands at. -/
theorem ReadyAt.step_eq {p : BitVec 4} {i : Instr} (h : ReadyAt p s)
    (hi : decodePhase p = .ok i) : step s = exec i s := by
  obtain ⟨-, -, -, -, -, hrst⟩ := h.env_open
  exact step_eq_exec hrst (stalled_of_open _ h.env_open) (h.seq_eq ▸ hi)

/-- The block length of this frame, in the low half of `hdr0` (R67). -/
theorem inNinCur_toNat {x : Code} (h : s.lat.items[0]? = some x) :
    (inNinCur s).toNat = x % 2 ^ 16 := by
  rw [inNinCur, BitVec.toNat_ofNat, item_eq h]

/-- The block length of the next frame, in the high half of `hdr0` (R67). -/
theorem inNinNext_toNat {x : Code} (h : s.lat.items[0]? = some x) :
    (inNinNext s).toNat = x / 2 ^ 16 % 2 ^ 16 := by
  rw [inNinNext, BitVec.toNat_ofNat, item_eq h, Nat.shiftRight_eq_div_pow]

/-- Passed through without a decode: verdict -1 above the block length (R66). -/
theorem verdWord_of_pass {c : Config} {x : Code} (hpass : verdictOf c s = (.pass, inNinCur s))
    (hdec : s.decoded = false) (h : s.lat.items[0]? = some x) :
    (verdWord c s).toNat = 7 * 2 ^ 16 + x % 2 ^ 16 := by
  have hcode : Verdict.pass.code.toNat = 7 := by decide
  rw [verdWord, hpass, hdec, rxfWord_toNat, inNinCur_toNat h, hcode, Nat.add_comm (x % 2 ^ 16)]
  rfl

/-- Muted without a decode: an empty response word (R66). -/
theorem verdWord_of_muted {c : Config} (hmuted : verdictOf c s = (.muted, 0))
    (hdec : s.decoded = false) : verdWord c s = 0 := by
  rw [verdWord, hmuted, hdec]
  rfl

/-- The state GATE leaves a searching call in, with its two headers queued first. -/
def searchingGated (s : State) (h0 h1 : Code) (more : List Code) : State :=
  { s with
    lat := { gate := Phy.searching, post := Phy.searching, items := [h0, h1] }
    env := { s.env with din := more }
    uwerr := 0, decoded := false }.dropSync.goto Phase.adv

theorem gate_rxf_searching (c : Config) {h0 h1 : Code} {more : List Code}
    (hdin : s.env.din = h0 :: h1 :: more) :
    gate c (rxf Phy.searching Phy.searching s) = searchingGated s h0 h1 more := by
  have hlatched : rxf Phy.searching Phy.searching s
      = { s with lat := { gate := Phy.searching, post := Phy.searching, items := [] } }.goto
          Phase.gate := rfl
  rw [hlatched, gate_of_queued (Nat.zero_le _) (by simp [hdin, neededItems])]
  simp [headersIn, takeItems, neededItems, searchingGated, State.goto, State.dropSync, hdin]

/-- IDLE, GATE, ADV and VERD are the four steps of the call. -/
theorem run_searchingCall {rest : List Word} {h0 h1 : Code} {more : List Code}
    (hready : ReadyAt Phase.idle s) (hcmd : s.env.cmd = 0x10000000 :: rest)
    (hdin : s.env.din = h0 :: h1 :: more) :
    Sys2Proof.core.run 4 s = .next (verd Config.cfg (adv
      (searchingGated { s with env := { s.env with cmd := rest } } h0 h1 more))) := by
  generalize hs1 : { s with env := { s.env with cmd := rest } } = s1
  have hready1 : ReadyAt Phase.idle s1 := hs1 ▸ ⟨hready.seq_eq, hready.slot_eq, hready.env_open⟩
  have hdin1 : s1.env.din = h0 :: h1 :: more := hs1 ▸ hdin
  have hgate : ReadyAt Phase.gate (rxf Phy.searching Phy.searching s1) :=
    rxf_readyAt hready1 (by decide)
  have hadv : ReadyAt Phase.adv (searchingGated s1 h0 h1 more) :=
    ⟨rfl, hready1.slot_eq, hready1.env_open⟩
  have begun : step s = .next (rxf Phy.searching Phy.searching s1) := by
    rw [hready.step_eq (i := .idle) rfl,
      exec_idle_of_command hcmd (i := .rxf Phy.searching Phy.searching) (by decide), hs1]
    rfl
  have gated : step (rxf Phy.searching Phy.searching s1)
      = .next (searchingGated s1 h0 h1 more) := by
    rw [← gate_rxf_searching Config.cfg hdin1]
    exact hgate.step_eq (i := .gate) rfl
  have advanced : step (searchingGated s1 h0 h1 more)
      = .next (adv (searchingGated s1 h0 h1 more)) := hadv.step_eq (i := .adv) rfl
  have ended : step (adv (searchingGated s1 h0 h1 more))
      = .next (verd Config.cfg (adv (searchingGated s1 h0 h1 more))) :=
    (adv_readyAt hadv).step_eq (i := .verd) rfl
  calc Sys2Proof.core.run 4 s
      = Sys2Proof.core.run 3 (rxf Phy.searching Phy.searching s1) := run_succ Sys2Proof.core 3 begun
    _ = Sys2Proof.core.run 2 (searchingGated s1 h0 h1 more) := run_succ Sys2Proof.core 2 gated
    _ = Sys2Proof.core.run 1 (adv (searchingGated s1 h0 h1 more)) :=
        run_succ Sys2Proof.core 1 advanced
    _ = .next (verd Config.cfg (adv (searchingGated s1 h0 h1 more))) :=
        run_one Sys2Proof.core ended

/-- Settles O57: four steps, whose verdict is pass-through or muted as the squelch says. -/
theorem searchingCallScenario : Obligations.SearchingCallScenario := by
  intro s rest h0 h1 more hinv hq ho hcmd hdin
  have hkept : { s with lat := Latch.empty, seq := Phase.idle } = s := by
    rw [← hinv.latch_idle (.inl hq), ← hq]
  have hrun := run_searchingCall ⟨hq, hinv.slot_of_idle hq, ho⟩ hcmd hdin
  generalize hu : adv (searchingGated { s with env := { s.env with cmd := rest } } h0 h1 more) = u
    at hrun
  have hsync : syncPredicate Config.cfg u u.lat.post = false := by
    rw [← hu]
    exact syncPredicate_searching rfl
  have hhdr0 : u.lat.items[0]? = some h0 := by
    rw [← hu]
    rfl
  refine ⟨verd Config.cfg u, verdWord Config.cfg u, hrun, ?_⟩
  subst hu
  refine ⟨rfl, fun hsq => ?_, fun hsq => ?_, rfl, inNinNext_toNat hhdr0, rfl, rfl, rfl, rfl, rfl,
    rfl, rfl, hkept⟩
  · exact verdWord_of_pass (verdictOf_pass hsync hsq) rfl hhdr0
  · exact verdWord_of_muted (verdictOf_muted hsync hsq) rfl

end Sys2Proof.Machine
end

section
/-! ### The age of the frames in the window (R106) -/

namespace Sys2Proof.Machine

open Sys2Proof.Claims

variable {c : Config} {s t : State} {n : Nat}

/-! #### When the count of absorbed frames moves -/

theorem takesSrst_of_phase (h : s.seq ≠ Phase.idle) : takesSrst s = false := by
  simp_all [takesSrst]

theorem takesSrst_of_cmd {w : Word} {rest : List Word} (hcmd : s.env.cmd = w :: rest)
    (hw : w ≠ 0x01000000) : takesSrst s = false := by
  simp_all [takesSrst]

theorem framesAfter_of_afresh (h : startsAfresh s t = true) : framesAfter s t n = 0 := if_pos h

/-- Out of reset, SRST and the losses of signal in GATE and ADV, SHAP alone moves the count. -/
theorem framesAfter_of_signal (hrst : s.env.rst = false) (hsession : takesSrst s = false)
    (hgate : s.seq = Phase.gate → t.seq ≠ Phase.adv)
    (hadv : s.seq = Phase.adv → s.lat.post ≠ Phy.searching) :
    framesAfter s t n = if s.seq = Phase.shap then n + 1 else n := by
  have hsignal : startsAfresh s t = false := by simp_all [startsAfresh]
  rw [framesAfter, hsignal]
  rfl

/-- The phases other than IDLE, GATE, SHAP and ADV leave the count alone. -/
theorem framesAfter_of_phase {p : BitVec 4} (hrst : s.env.rst = false) (hq : s.seq = p)
    (hp : p ≠ Phase.idle ∧ p ≠ Phase.gate ∧ p ≠ Phase.shap ∧ p ≠ Phase.adv) :
    framesAfter s t n = n := by
  subst hq
  obtain ⟨hidle, hgate, hshap, hadv⟩ := hp
  rw [framesAfter_of_signal hrst (takesSrst_of_phase hidle) (absurd · hgate) (absurd · hadv),
    if_neg hshap]

/-- SHAP, ADV and an SRST whose response is accepted wait for nothing (R168). -/
theorem not_waiting_of_stalled (h : stalled c s = true) :
    s.seq ≠ Phase.shap ∧ s.seq ≠ Phase.adv ∧ takesSrst s = false := by
  refine ⟨fun hq => ?_, fun hq => ?_, ?_⟩
  · simp [stalled, sendsResponse, invokesDecoder, hq] at h
  · simp [stalled, sendsResponse, invokesDecoder, hq] at h
  · by_contra htakes
    simp only [takesSrst, Bool.not_eq_false, Bool.and_eq_true, beq_iff_eq] at htakes
    obtain ⟨⟨hq, -⟩, hready⟩ := htakes
    simp [stalled, invokesDecoder, hq, hready] at h

/-- A wait absorbs no frame and loses none. -/
theorem framesAfter_of_stalled (hrst : s.env.rst = false) (h : stalled c s = true) :
    framesAfter s s n = n := by
  obtain ⟨hshap, hadv, hsession⟩ := not_waiting_of_stalled h
  rw [framesAfter_of_signal hrst hsession (fun hq => by simp [hq]) (absurd · hadv), if_neg hshap]

/-! #### Three ways to meet the invariant -/

/-- Nothing is absorbed yet, and interleaver sync is off. -/
theorem freshFor_zero (hsync : t.ilvSynced = false) (hfci : t.fci = 0) (hisyn : t.seq ≠ Phase.isyn)
    (hdsub : t.seq ≠ Phase.dsub) : FreshFor c t 0 :=
  ⟨fun _ => by simp [hfci], (absurd · hisyn), fun hs => by simp [hsync] at hs, (absurd · hdsub)⟩

/-- The window is synchronised and all its frames are counted. -/
theorem freshFor_synced (hsync : t.ilvSynced = true) (hfull : c.D ≤ n)
    (hisyn : t.seq ≠ Phase.isyn) : FreshFor c t n :=
  ⟨fun hs => by simp [hsync] at hs, (absurd · hisyn), fun _ => hfull, fun _ => hsync⟩

/-- Neither the count nor interleaver sync moves, and no phase with a condition begins. -/
theorem freshFor_kept (h : FreshFor c s n) (hsync : t.ilvSynced = s.ilvSynced)
    (hfci : t.fci = s.fci) (hleft : s.seq ≠ Phase.isyn) (hisyn : t.seq ≠ Phase.isyn)
    (hdsub : t.seq = Phase.dsub → s.seq = Phase.dsub) : FreshFor c t n := by
  obtain ⟨hcount, -, hfull, hpass⟩ := h
  rw [if_neg hleft] at hcount
  refine ⟨?_, (absurd · hisyn), hsync ▸ hfull, fun hq => hsync.trans (hpass (hdsub hq))⟩
  rwa [if_neg hisyn, hsync, hfci]

theorem freshFor_reset (c : Config) (e : Env) (tr : List Event) :
    FreshFor c { State.resetOn c with env := e, trace := tr } 0 :=
  freshFor_zero rfl rfl (by simp [State.resetOn]) (by simp [State.resetOn])

/-! #### Host commands -/

/-- A command leaves the sequencer in IDLE or begins its micro-program (R70, R71). -/
theorem CommandDone.seq_cases {w : Word} (h : CommandDone c w s t) (hw : w ≠ 0x01000000) :
    t.seq = s.seq ∨ t.seq = Phase.gate ∨ t.seq = Phase.tenc := by
  cases h with
  | illegal => exact .inl rfl
  | nop => exact .inl rfl
  | srst h => exact absurd h hw
  | csrw => exact .inl (congrArg State.seq (csrw_frame _ _ s) :)
  | csrr => exact .inl (congrArg State.seq (csrr_frame _ s) :)
  | rdb => exact .inl (congrArg State.seq (rdb_frame c _ s) :)
  | rxf =>
    rw [Machine.rxf]
    split
    · exact .inl rfl
    · exact .inr (.inl rfl)
  | txt => exact .inr (.inr rfl)

/-- The word of SRST is no other command's. -/
theorem CommandDone.eq_of_srst (h : CommandDone c 0x01000000 s t) :
    t = respond 0 (s.sessionReset c) := by
  have hdec : decodeCommand 0x01000000 = .ok .srst := by decide
  cases h with
  | srst => rfl
  | _ h => cases hdec.symm.trans h

theorem CommandDone.freshFor {w : Word} {rest : List Word}
    (hdone : CommandDone c w { s with env := { s.env with cmd := rest } } t)
    (h : FreshFor c s n) (hq : s.seq = Phase.idle) (hcmd : s.env.cmd = w :: rest)
    (hrst : s.env.rst = false) (hrun : stalled c s = false) :
    FreshFor c t (framesAfter s t n) := by
  by_cases hw : w = 0x01000000
  · subst hw
    have hsrst : takesSrst s = true := takesSrst_of_running hq hcmd hrun
    rw [framesAfter_of_afresh (by simp [startsAfresh, hsrst]), hdone.eq_of_srst]
    exact freshFor_reset ..
  · rw [framesAfter_of_signal hrst (takesSrst_of_cmd hcmd hw) (by simp [hq]) (by simp [hq]),
      if_neg (by simp [hq])]
    have hseq : t.seq = Phase.idle ∨ t.seq = Phase.gate ∨ t.seq = Phase.tenc :=
      (hdone.seq_cases hw).imp_left (·.trans hq)
    refine freshFor_kept h (congrArg Prod.fst (hdone.flags hw) :)
      (congrArg State.fci (hdone.frame hw) :) (by simp [hq]) ?_ ?_
    all_goals rcases hseq with hseq | hseq | hseq <;> simp [hseq]

/-! #### The phases -/

/-- IDLE with no command offered. -/
theorem idle_freshFor (h : FreshFor c s n) (hq : s.seq = Phase.idle) (hcmd : s.env.cmd = [])
    (hrst : s.env.rst = false) : FreshFor c s (framesAfter s s n) := by
  rwa [framesAfter_of_signal hrst (by simp [takesSrst, hcmd]) (by simp [hq]) (by simp [hq]),
    if_neg (by simp [hq])]

theorem gate_freshFor (h : FreshFor c s n) (hq : s.seq = Phase.gate) (hrst : s.env.rst = false) :
    FreshFor c (gate c s) (framesAfter s (gate c s) n) := by
  have keeps {t : State} (hsync : t.ilvSynced = s.ilvSynced) (hfci : t.fci = s.fci)
      (hseq : t.seq = Phase.gate ∨ t.seq = Phase.shap) : FreshFor c t (framesAfter s t n) := by
    have hsession := takesSrst_of_phase (s := s) (by simp [hq])
    have hadv : t.seq ≠ Phase.adv := by rcases hseq with hseq | hseq <;> simp [hseq]
    rw [framesAfter_of_signal hrst hsession (fun _ => hadv) (by simp [hq]), if_neg (by simp [hq])]
    refine freshFor_kept h hsync hfci (by simp [hq]) ?_ ?_
    all_goals rcases hseq with hseq | hseq <;> simp [hseq]
  rcases gate_cases c s with hg | hg | hg | hg <;> rw [hg]
  · exact keeps rfl rfl (.inl hq)
  · exact keeps rfl rfl (.inl hq)
  · exact keeps rfl rfl (.inr rfl)
  · rw [framesAfter_of_afresh (by simp [startsAfresh, hq])]
    exact freshFor_zero rfl rfl (by simp) (by simp)

/-- SHAP absorbs a frame that ISYN has yet to count. -/
theorem shap_freshFor (h : FreshFor c s n) (hq : s.seq = Phase.shap) (hrst : s.env.rst = false) :
    FreshFor c (shap c s) (framesAfter s (shap c s) n) := by
  have hsession := takesSrst_of_phase (s := s) (by simp [hq])
  rw [framesAfter_of_signal hrst hsession (by simp [hq]) (by simp [hq]), if_pos hq]
  obtain ⟨hcount, -, hfull, -⟩ := h
  rw [if_neg (by simp [hq])] at hcount
  exact ⟨hcount, fun _ => Nat.le_add_left 1 n, fun hs => (hfull hs).trans (Nat.le_succ n),
    (absurd · (by simp [shap]))⟩

theorem isyn_fci (c : Config) (s : State) : (isyn c s).fci = min (s.fci + 1) c.D := by
  rw [isyn]
  dsimp only
  split <;> rfl

/-- Short of `D` counted frames there is no trial decode (R112). -/
theorem isyn_ilvSynced_of_short (h : s.fci + 1 < c.D) : (isyn c s).ilvSynced = s.ilvSynced := by
  have hshort : min (s.fci + 1) c.D ≠ c.D := by omega
  simp [isyn, hshort]

/-- ISYN counts the frame, and accepts a window of `D` counted frames alone (R112). -/
theorem isyn_freshFor (h : FreshFor c s n) (hq : s.seq = Phase.isyn) : FreshFor c (isyn c s) n := by
  obtain ⟨hcount, habsorbed, hfull, -⟩ := h
  have hpos : 1 ≤ n := habsorbed hq
  have hnext : (isyn c s).seq = Phase.wchk := rfl
  rw [if_pos hq] at hcount
  refine ⟨fun hs => ?_, by simp [hnext], fun hs => ?_, by simp [hnext]⟩
  · have hbefore : s.ilvSynced = false := by
      rcases isyn_ilvSynced c s with hkept | haccepted
      · exact hkept.symm.trans hs
      · simp [haccepted] at hs
    rw [isyn_fci, hcount hbefore, if_neg (by simp [hnext])]
    omega
  · by_contra hshort
    have hbefore : s.ilvSynced = false := Bool.eq_false_iff.2 fun hsync => hshort (hfull hsync)
    have hfci := hcount hbefore
    rw [isyn_ilvSynced_of_short (by omega), hbefore] at hs
    exact Bool.noConfusion hs

theorem wchk_freshFor (h : FreshFor c s n) (hq : s.seq = Phase.wchk) : FreshFor c (wchk c s) n := by
  rw [wchk]
  split
  · rename_i hready
    have hsync : s.ilvSynced = true := ((Bool.and_eq_true _ _).mp hready).1
    obtain ⟨-, -, hfull, -⟩ := h
    exact freshFor_synced hsync (hfull hsync) (by simp)
  · exact freshFor_kept h rfl rfl (by simp [hq]) (by simp) (by simp)

theorem dsub_freshFor (h : FreshFor c s n) (hq : s.seq = Phase.dsub) : FreshFor c (dsub c s) n := by
  refine freshFor_kept h (congrArg State.ilvSynced (dsub_frame c s) :)
    (congrArg State.fci (dsub_frame c s) :) (by simp [hq]) ?_ (fun _ => hq)
  rcases dsub_seq c s with hseq | hseq <;> simp [hseq]

theorem tdec_freshFor (h : FreshFor c s n) (hq : s.seq = Phase.tdec) : FreshFor c (tdec c s) n := by
  refine freshFor_kept h (congrArg State.ilvSynced (tdec_frame c s) :)
    (congrArg State.fci (tdec_frame c s) :) (by simp [hq]) ?_ ?_
  all_goals rcases tdec_position c s with ⟨hseq, -⟩ | ⟨hseq, -⟩ <;> simp [hseq]

theorem adv_freshFor (h : FreshFor c s n) (hq : s.seq = Phase.adv) (hrst : s.env.rst = false) :
    FreshFor c (adv s) (framesAfter s (adv s) n) := by
  by_cases hsearch : s.lat.post = Phy.searching
  · rw [framesAfter_of_afresh (by simp [startsAfresh, hq, hsearch]), adv, if_pos hsearch]
    exact freshFor_zero rfl rfl (by simp) (by simp)
  · rw [framesAfter_of_signal hrst (takesSrst_of_phase (by simp [hq])) (by simp [hq])
      (fun _ => hsearch), if_neg (by simp [hq]), adv, if_neg hsearch]
    exact freshFor_kept h rfl rfl (by simp [hq]) (by simp) (by simp)

theorem tenc_seq (c : Config) (hq : s.seq = Phase.tenc) :
    (tenc c s).seq = Phase.tenc ∨ (tenc c s).seq = Phase.idle := by
  rcases tenc_cases c s with h | h | h | ⟨-, h⟩ <;> rw [h]
  · exact .inl hq
  · exact .inr rfl
  · exact .inr rfl
  · exact .inl rfl

theorem tenc_freshFor (h : FreshFor c s n) (hq : s.seq = Phase.tenc) : FreshFor c (tenc c s) n := by
  refine freshFor_kept h (congrArg State.ilvSynced (tenc_frame c s) :)
    (congrArg State.fci (tenc_frame c s) :) (by simp [hq]) ?_ ?_
  all_goals rcases tenc_seq c hq with hseq | hseq <;> simp [hseq]

theorem PhaseDone.freshFor (hdone : PhaseDone c s t) (h : FreshFor c s n)
    (hrst : s.env.rst = false) (hrun : stalled c s = false) :
    FreshFor c t (framesAfter s t n) := by
  have quiet {p : BitVec 4} (hq : s.seq = p) := framesAfter_of_phase (t := t) (n := n) hrst hq
  cases hdone with
  | waits hq hcmd => exact idle_freshFor h hq hcmd hrst
  | command hq hcmd hdone => exact hdone.freshFor h hq hcmd hrst hrun
  | gate hq => exact gate_freshFor h hq hrst
  | shap hq => exact shap_freshFor h hq hrst
  | isyn hq => exact (quiet hq (by decide)).symm ▸ isyn_freshFor h hq
  | wchk hq => exact (quiet hq (by decide)).symm ▸ wchk_freshFor h hq
  | dsub hq => exact (quiet hq (by decide)).symm ▸ dsub_freshFor h hq
  | tdec hq => exact (quiet hq (by decide)).symm ▸ tdec_freshFor h hq
  | uwer hq =>
    rw [quiet hq (by decide)]
    exact freshFor_kept h rfl rfl (by simp [hq]) (by simp [Machine.uwer]) (by simp [Machine.uwer])
  | adv hq => exact adv_freshFor h hq hrst
  | verd hq =>
    rw [quiet hq (by decide)]
    exact freshFor_kept h rfl rfl (by simp [hq]) (by simp [Machine.verd]) (by simp [Machine.verd])
  | tenc hq => exact (quiet hq (by decide)).symm ▸ tenc_freshFor h hq

/-! #### Any step, and what the invariant says where the window is read -/

theorem step_freshFor (hstep : step s = .next t) (h : FreshFor Config.cfg s n) :
    FreshFor Config.cfg t (framesAfter s t n) := by
  rcases step_cases hstep with ⟨hrst, rfl⟩ | ⟨hrst, rfl, hstalled⟩ | ⟨hrst, hrun, hdone⟩
  · rw [framesAfter_of_afresh (by simp [startsAfresh, hrst])]
    exact freshFor_reset ..
  · rwa [framesAfter_of_stalled hrst hstalled]
  · exact hdone.freshFor h hrst hrun

/-- A trial decode needs a count of `D`, the frame in hand with it (R112). -/
theorem fresh_of_trial (h : FreshFor c s n) (hq : s.seq = Phase.isyn) (hsync : s.ilvSynced = false)
    (hfull : c.D ≤ s.fci + 1) : c.D ≤ n := by
  obtain ⟨hcount, habsorbed, -, -⟩ := h
  have hpos := habsorbed hq
  have hfci := hcount hsync
  rw [if_pos hq] at hfci
  omega

/-- Settles O31: the count holds from reset on, and a decode pass runs in a synchronised window. -/
theorem decodedWindowIsFresh : Obligations.DecodedWindowIsFresh := by
  refine ⟨freshFor_reset Config.cfg Env.quiet [], fun s t n h hstep => step_freshFor hstep h,
    fun s n h => ⟨fun hq => ?_, fresh_of_trial h⟩⟩
  obtain ⟨-, -, hfull, hpass⟩ := h
  exact hfull (hpass hq)

end Sys2Proof.Machine
end

/-! ## Interleaver sync: ISYN, WCHK, ADV and the machine over one RXF
(spec/43_interleaver_sync.md) -/

section
/-! ### ISYN, WCHK and ADV, one equation for each branch -/

namespace Sys2Proof.Machine

open Sys2Proof.Claims

variable {c : Config} {s t : State}

/-- ISYN at a full count without sync: the trial decode of sub-frame 0 (R112). -/
theorem isyn_of_trial (hsync : s.ilvSynced = false) (hfull : c.D ≤ s.fci + 1) :
    isyn c s = { s.decodeSub c 0 with
      fci := c.D, ilvSynced := trialAccepted c (fecDecode c s 0), seq := Phase.wchk } := by
  have hcount : min (s.fci + 1) c.D = c.D := Nat.min_eq_right hfull
  simp only [isyn, hcount, hsync, Bool.not_false, beq_self_eq_true, Bool.and_self, if_true]
  rfl

/-- ISYN that only counts: synchronised, or short of a full count (R112). -/
theorem isyn_of_no_trial (h : s.ilvSynced = true ∨ s.fci + 1 < c.D) :
    isyn c s = { s with fci := min (s.fci + 1) c.D, seq := Phase.wchk } := by
  have hno : ¬(!s.ilvSynced && min (s.fci + 1) c.D == c.D) = true := by
    rcases h with hsync | hshort
    · simp [hsync]
    · simp [Nat.not_le.2 hshort]
  exact congrArg (State.goto · Phase.wchk) (if_neg hno)

theorem windowReady_iff : windowReady c s = true ↔ SyncedFull c s := by
  simp [windowReady, SyncedFull]

theorem wchk_of_full (h : SyncedFull c s) :
    wchk c s = { s with fci := 0, decoded := true, subf := 0, seq := Phase.dsub } :=
  if_pos (windowReady_iff.2 h)

theorem wchk_of_not_full (h : ¬SyncedFull c s) : wchk c s = { s with seq := Phase.tdec } :=
  if_neg (mt windowReady_iff.1 h)

theorem adv_of_searching (h : s.lat.post = Phy.searching) :
    adv s = { s with
      phy := s.lat.post, nin := inNinNext s, ilvSynced := false, fci := 0, pcc := 0, iter := 0
      seq := Phase.verd } := by
  rw [adv, if_pos h]
  rfl

theorem adv_of_signal (h : s.lat.post ≠ Phy.searching) :
    adv s = { s with phy := s.lat.post, nin := inNinNext s, seq := Phase.verd } := by
  rw [adv, if_neg h]
  rfl

/-- Settles O26: the trial decode is made exactly at a full count without sync. -/
theorem isynCountsAndTries : Obligations.IsynCountsAndTries := by
  intro s
  by_cases htry : s.ilvSynced = false ∧ Config.cfg.D ≤ s.fci + 1
  · obtain ⟨hsync, hfull⟩ := htry
    obtain ⟨hpcc, hiter, -, -⟩ := decodeSub_counts Config.cfg_wf s 0
    refine ⟨_, congrArg Host.Outcome.next (isyn_of_trial hsync hfull),
      (Nat.min_eq_right hfull).symm, rfl,
      fun _ _ => ⟨hiter, hpcc, trialAccepted_iff _ _, rfl⟩, fun hno => ?_, rfl⟩
    rcases hno with hsynced | hshort
    · simp [hsync] at hsynced
    · omega
  · have hno : s.ilvSynced = true ∨ s.fci + 1 < Config.cfg.D := by
      simpa only [not_and_or, Bool.not_eq_false, not_le] using htry
    exact ⟨_, congrArg Host.Outcome.next (isyn_of_no_trial hno), rfl, rfl,
      fun hsync hfull => absurd ⟨hsync, hfull⟩ htry, fun _ => ⟨rfl, rfl, rfl, rfl⟩, rfl⟩

/-- Settles O27: the two branches of WCHK. -/
theorem wchkStartsDecodePass : Obligations.WchkStartsDecodePass := by
  intro s
  by_cases hfull : SyncedFull Config.cfg s
  · exact ⟨_, congrArg Host.Outcome.next (wchk_of_full hfull), fun _ => ⟨rfl, rfl, rfl, rfl⟩,
      fun hnot => absurd hfull hnot, rfl⟩
  · exact ⟨_, congrArg Host.Outcome.next (wchk_of_not_full hfull), fun h => absurd h hfull,
      fun _ => ⟨rfl, rfl, rfl, rfl⟩, rfl⟩

/-- Settles O28: the two branches of ADV. -/
theorem advLatchesAndDrops : Obligations.AdvLatchesAndDrops := by
  intro s
  by_cases hsearch : s.lat.post = Phy.searching
  · exact ⟨_, congrArg Host.Outcome.next (adv_of_searching hsearch), rfl, rfl, rfl,
      fun _ => ⟨rfl, rfl, rfl, rfl⟩, fun hsignal => absurd hsearch hsignal, rfl⟩
  · exact ⟨_, congrArg Host.Outcome.next (adv_of_signal hsearch), rfl, rfl, rfl,
      fun h => absurd h hsearch, fun _ => ⟨rfl, rfl, rfl, rfl⟩, rfl⟩

/-- A phase that loses interleaver sync is GATE or ADV with the physical layer searching. -/
theorem PhaseDone.sync_lost (h : PhaseDone c s t) (hphase : s.seq ≠ Phase.idle)
    (hsync : s.ilvSynced = true) (hlost : t.ilvSynced = false) :
    (s.seq = Phase.gate ∧ s.lat.gate = Phy.searching)
      ∨ (s.seq = Phase.adv ∧ s.lat.post = Phy.searching) := by
  have hchange : t.ilvSynced ≠ s.ilvSynced := by simp [hsync, hlost]
  have hwriter : s.seq = Phase.gate ∨ s.seq = Phase.adv := by
    obtain ⟨hwritten, -, -⟩ := h.flagsWritten hphase
    rcases hwritten with hkept | ⟨-, hset⟩ | ⟨hwriter, -⟩
    · exact absurd hkept hchange
    · simp [hlost] at hset
    · exact hwriter
  cases h with
  | gate hq => exact .inl ⟨hq, ((gate_sync c s).resolve_left (hchange ·.1)).1⟩
  | adv hq => exact .inr ⟨hq, ((adv_sync s).resolve_left (hchange ·.1)).1⟩
  | _ hq => simp [hq] at hwriter

/-- Settles O29: a wait and a host command keep the flag, and of the phases only GATE and ADV clear
it. -/
theorem syncLostOnlyWithoutSignal : Obligations.SyncLostOnlyWithoutSignal := by
  intro s t hstep hsync hlost
  have hchange : t.ilvSynced ≠ s.ilvSynced := by simp [hsync, hlost]
  cases hrst : s.env.rst with
  | true => exact .inl rfl
  | false =>
    cases hsession : takesSrst s with
    | true => exact .inr (.inl rfl)
    | false =>
      rcases session_step_cases hstep hrst hsession with rfl | ⟨_, _, -, -, hw, hdone⟩ |
        ⟨hphase, hdone⟩
      · exact absurd rfl hchange
      · exact absurd (congrArg Prod.fst (hdone.flags hw) :) hchange
      · exact .inr (.inr (hdone.sync_lost hphase hsync hlost))

end Sys2Proof.Machine
end

section
/-! ### The interleaver machine over one whole RXF (R115) -/

namespace Sys2Proof.Machine

open Sys2Proof.Claims

variable {c : Config} {s : State}

/-- The registers the table of R115 speaks of, and the latch with the two physical-layer states that
decide its rows. -/
def State.syncView (s : State) : Bool × Nat × Bool × Latch :=
  (s.ilvSynced, s.fci, s.decoded, s.lat)

theorem syncView_eq_iff {synced pass : Bool} {count : Nat} {lat : Latch} :
    s.syncView = (synced, count, pass, lat) ↔
      s.ilvSynced = synced ∧ s.fci = count ∧ s.decoded = pass ∧ s.lat = lat := by
  simp only [State.syncView, Prod.mk.injEq]

/-- A micro-operation that keeps the view keeps it in a loop. -/
theorem iterate_syncView {f : State → State} (h : ∀ u, (f u).syncView = u.syncView) (n : Nat)
    (s : State) : (f^[n] s).syncView = s.syncView := by
  have hloop : Function.Semiconj State.syncView f id := h
  rw [(hloop.iterate_right n).eq s, Function.iterate_id, id]

theorem dsub_syncView (c : Config) (s : State) : (dsub c s).syncView = s.syncView :=
  (congrArg State.syncView (dsub_frame c s) :)

theorem tdec_syncView (c : Config) (s : State) : (tdec c s).syncView = s.syncView :=
  (congrArg State.syncView (tdec_frame c s) :)

theorem uwer_syncView (c : Config) (s : State) : (uwer c s).syncView = s.syncView :=
  (congrArg State.syncView (uwer_frame c s) :)

/-- After WCHK an absorbed frame leaves the view alone. -/
theorem absorbFrame_syncView (c : Config) (s : State) :
    (absorbFrame c s).syncView = (wchk c (isyn c (shap c s))).syncView := by
  rw [absorbFrame, uwer_syncView, iterate_syncView (tdec_syncView c)]
  split
  · exact iterate_syncView (dsub_syncView c) _ _
  · rfl

/-- ISYN reached a full count in sync: the decode pass restarts the count. -/
theorem absorbFrame_of_full (h : SyncedFull c (isyn c (shap c s))) :
    (absorbFrame c s).syncView = (true, 0, true, s.lat) := by
  have hlat : (isyn c (shap c s)).lat = s.lat := (congrArg State.lat (isyn_frame c _) :)
  rw [absorbFrame_syncView, wchk_of_full h]
  exact syncView_eq_iff.2 ⟨h.1, rfl, rfl, hlat⟩

/-- ISYN reached no full count in sync: its outcome stays. -/
theorem absorbFrame_of_not_full (h : ¬SyncedFull c (isyn c (shap c s))) :
    (absorbFrame c s).syncView
      = ((isyn c (shap c s)).ilvSynced, (isyn c (shap c s)).fci, s.decoded, s.lat) := by
  have hlat : (isyn c (shap c s)).lat = s.lat := (congrArg State.lat (isyn_frame c _) :)
  have hdecoded : (isyn c (shap c s)).decoded = s.decoded :=
    (congrArg State.decoded (isyn_frame c _) :)
  rw [absorbFrame_syncView, wchk_of_not_full h]
  exact syncView_eq_iff.2 ⟨rfl, rfl, hdecoded, hlat⟩

/-! #### The outcomes of an absorbed frame -/

section
variable {synced pass : Bool} {count : Nat} {lat : Latch}

/-- Short of a full count the frame is counted and nothing is tried. -/
theorem absorbFrame_counts (h : s.syncView = (synced, count, pass, lat))
    (hshort : count + 1 < c.D) :
    (absorbFrame c s).syncView = (synced, count + 1, pass, lat) := by
  obtain ⟨rfl, rfl, rfl, rfl⟩ := syncView_eq_iff.1 h
  have hisyn := isyn_of_no_trial (s := shap c s) (.inr hshort)
  have hcount : (isyn c (shap c s)).fci = s.fci + 1 := by
    rw [hisyn]
    exact Nat.min_eq_left hshort.le
  have hfull : ¬SyncedFull c (isyn c (shap c s)) := fun ⟨_, hfci⟩ => by omega
  rw [absorbFrame_of_not_full hfull, hcount, hisyn]
  rfl

/-- A synchronised window is full again: the decode pass runs (R113). -/
theorem absorbFrame_completes (h : s.syncView = (true, count, pass, lat))
    (hfull : count + 1 = c.D) : (absorbFrame c s).syncView = (true, 0, true, lat) := by
  obtain ⟨hsync, rfl, -, rfl⟩ := syncView_eq_iff.1 h
  apply absorbFrame_of_full
  rw [isyn_of_no_trial (s := shap c s) (.inl hsync)]
  exact ⟨hsync, Nat.min_eq_right hfull.ge⟩

/-- The trial decode gains interleaver sync: the decode pass runs at once (R112, R113). -/
theorem absorbFrame_accepts (h : s.syncView = (false, count, pass, lat))
    (hfull : c.D ≤ count + 1) (hok : trialAccepted c (fecDecode c (shap c s) 0) = true) :
    (absorbFrame c s).syncView = (true, 0, true, lat) := by
  obtain ⟨hsync, rfl, -, rfl⟩ := syncView_eq_iff.1 h
  apply absorbFrame_of_full
  rw [isyn_of_trial (s := shap c s) hsync hfull]
  exact ⟨hok, rfl⟩

/-- The trial decode fails: the count stays full (R112). -/
theorem absorbFrame_rejects (h : s.syncView = (false, count, pass, lat))
    (hfull : c.D ≤ count + 1) (hno : trialAccepted c (fecDecode c (shap c s) 0) = false) :
    (absorbFrame c s).syncView = (false, c.D, pass, lat) := by
  obtain ⟨hsync, rfl, rfl, rfl⟩ := syncView_eq_iff.1 h
  have hisyn := isyn_of_trial (s := shap c s) hsync hfull
  have hkept : (isyn c (shap c s)).ilvSynced = false := by rw [hisyn, hno]
  have hnot : ¬SyncedFull c (isyn c (shap c s)) := fun ⟨hset, _⟩ => by simp [hkept] at hset
  rw [absorbFrame_of_not_full hnot, hkept, hisyn]

/-- What a call ending in physical-layer state `phyPost` leaves, the interleaver machine having come
to `synced` and `count` before ADV (R114, R115). -/
def SyncAfter (phyPost : BitVec 2) (synced : Bool) (count : Nat) (pass : Bool) (t : State) : Prop :=
  t.decoded = pass
    ∧ (phyPost ≠ 0 → t.ilvSynced = synced ∧ t.fci = count)
    ∧ (phyPost = 0 → t.ilvSynced = false ∧ t.fci = 0)

/-- ADV and VERD end the call. -/
theorem syncAfter_verd_adv (h : s.syncView = (synced, count, pass, lat)) :
    SyncAfter lat.post synced count pass (verd c (adv s)) := by
  obtain ⟨rfl, rfl, rfl, rfl⟩ := syncView_eq_iff.1 h
  by_cases hsearch : s.lat.post = Phy.searching
  · rw [adv_of_searching hsearch]
    exact ⟨rfl, fun hsignal => absurd hsearch hsignal, fun _ => ⟨rfl, rfl⟩⟩
  · rw [adv_of_signal hsearch]
    exact ⟨rfl, fun _ => ⟨rfl, rfl⟩, fun h => absurd h hsearch⟩

end

/-! #### The whole call -/

section
variable {phyGate phyPost : BitVec 2}

/-- Where a legal `RXF` begins: its operands latched, no item taken (R85). -/
def latched (phyGate phyPost : BitVec 2) (s : State) : State :=
  { s with lat := { gate := phyGate, post := phyPost, items := [] } }.goto Phase.gate

theorem rxf_of_legal (hgate : phyGate ≠ Phy.reserved) (hpost : phyPost ≠ Phy.reserved) :
    rxf phyGate phyPost s = latched phyGate phyPost s := if_neg (not_or.2 ⟨hgate, hpost⟩)

/-- The latch once GATE took the whole call's items (R101). -/
def latchTaken (c : Config) (phyGate phyPost : BitVec 2) (s : State) : Latch :=
  { gate := phyGate, post := phyPost, items := s.env.din.take (neededItems c phyGate) }

theorem takeItems_latched (c : Config) (phyGate phyPost : BitVec 2) (s : State) :
    (takeItems c (latched phyGate phyPost s)).lat = latchTaken c phyGate phyPost s := by
  simp [latched, latchTaken]

theorem headersIn_syncView (c : Config) (s : State) :
    (headersIn c s).syncView = (s.ilvSynced, s.fci, false, (takeItems c s).lat) := rfl

/-- With all its items queued GATE does not wait. -/
theorem gate_latched (hdin : neededItems c phyGate ≤ s.env.din.length) :
    gate c (latched phyGate phyPost s)
      = if phyGate = Phy.searching then
          (headersIn c (latched phyGate phyPost s)).dropSync.goto Phase.adv
        else (headersIn c (latched phyGate phyPost s)).goto Phase.shap :=
  gate_of_queued (s := latched phyGate phyPost s) (Nat.zero_le _)
    (hdin.trans (Nat.le_add_left ..))

/-- GATE drops sync when the call finds no signal, and clears DECODED (R101). -/
theorem gate_latched_of_searching (hsearch : phyGate = Phy.searching)
    (hdin : neededItems c phyGate ≤ s.env.din.length) :
    (gate c (latched phyGate phyPost s)).syncView
      = (false, 0, false, latchTaken c phyGate phyPost s) := by
  rw [gate_latched hdin, if_pos hsearch]
  exact syncView_eq_iff.2 ⟨rfl, rfl, rfl, takeItems_latched ..⟩

/-- With a frame demodulated GATE keeps sync and the count, and clears DECODED (R101). -/
theorem gate_latched_of_frame (hframe : phyGate ≠ Phy.searching)
    (hdin : neededItems c phyGate ≤ s.env.din.length) :
    (gate c (latched phyGate phyPost s)).syncView
      = (s.ilvSynced, s.fci, false, latchTaken c phyGate phyPost s) := by
  have hview := headersIn_syncView c (latched phyGate phyPost s)
  rw [takeItems_latched] at hview
  rw [gate_latched hdin, if_neg hframe]
  exact hview

theorem receiveCall_of_legal (hgate : phyGate ≠ Phy.reserved) (hpost : phyPost ≠ Phy.reserved) :
    receiveCall c phyGate phyPost s
      = verd c (adv (if phyGate = Phy.searching then gate c (latched phyGate phyPost s)
          else absorbFrame c (gate c (latched phyGate phyPost s)))) := by
  rw [receiveCall, if_neg (not_or.2 ⟨hgate, hpost⟩), rxf_of_legal hgate hpost]

end

/-- Settles O30: GATE decides between the first row and the others, ISYN and WCHK between those, and
ADV replaces the pair when the call ends searching. -/
theorem syncTransitionTable : Obligations.SyncTransitionTable := by
  intro s phyGate phyPost _ _ hgate hpost hdin t r ok after
  have hcall : t = _ := receiveCall_of_legal hgate hpost
  have hok : trialAccepted Config.cfg r = true ↔ ok := trialAccepted_iff _ _
  simp only [r, rxf_of_legal hgate hpost] at hok
  by_cases hsearch : phyGate = 0
  · have hview := gate_latched_of_searching (phyPost := phyPost) hsearch hdin
    have hafter : after false 0 false := by
      rw [if_pos hsearch] at hcall
      show SyncAfter phyPost _ _ _ t
      exact hcall ▸ syncAfter_verd_adv hview
    exact ⟨fun _ => hafter, by simp [hsearch]⟩
  · have hview := gate_latched_of_frame (phyPost := phyPost) hsearch hdin
    rw [if_neg hsearch] at hcall
    have row {synced pass : Bool} {count : Nat}
        (h : (absorbFrame Config.cfg (gate Config.cfg (latched phyGate phyPost s))).syncView
          = (synced, count, pass, latchTaken Config.cfg phyGate phyPost s)) :
        after synced count pass := by
      show SyncAfter phyPost _ _ _ t
      exact hcall ▸ syncAfter_verd_adv h
    refine ⟨(absurd · hsearch), fun _ hsync hshort => row ?_, fun _ hsync hfull hno => row ?_,
      fun _ hsync hfull hyes => row ?_, fun _ hsync hshort => row ?_,
      fun _ hsync hfull => row ?_⟩
    all_goals rw [hsync] at hview
    · exact absorbFrame_counts hview hshort
    · exact absorbFrame_rejects hview (min_eq_right_iff.1 hfull)
        (Bool.eq_false_iff.2 (mt hok.1 hno))
    · exact absorbFrame_accepts hview (min_eq_right_iff.1 hfull) (hok.2 hyes)
    · exact absorbFrame_counts hview hshort
    · exact absorbFrame_completes hview hfull

end Sys2Proof.Machine
end

/-! ## The FEC pipeline (spec/44_fec_pipeline.md) -/

section
/-! ### The padded LLR array (R122, R123) -/

namespace Sys2Proof.Machine

variable {c : Config} {llr : List Code} {i : Nat}

/-- One form for both branches of `Pad`: without padding the middle part is empty. -/
theorem pad_eq_append (c : Config) (llr : List Code) :
    pad c llr = llr.take c.K ++ (List.replicate c.PADN c.LLR_PAD ++ llr.drop c.K) := by
  rw [pad]
  split
  case isTrue h => simp [Config.PADN, h]
  case isFalse => exact List.append_assoc _ _ _

/-- The payload LLRs are all there, since padding only fills up the data bits (R122, R123). -/
theorem length_take_payload (hc : c.WF) (hlen : llr.length = c.B) :
    (llr.take c.K).length = c.K := by
  have hbits : c.B + (c.ND - c.K) = c.NC := hc.coded_bits
  have hdata := hc.data_capacity
  have hcoded := hc.coded_capacity
  rw [List.length_take]
  omega

theorem pad_getElem?_payload (hc : c.WF) (hlen : llr.length = c.B) (hi : i < c.K) :
    (pad c llr)[i]? = llr[i]? := by
  rw [pad_eq_append, List.getElem?_append_left (by rwa [length_take_payload hc hlen]),
    List.getElem?_take_of_lt hi]

/-- Past the payload the array is the padding and then the parity LLRs. -/
theorem pad_getElem?_past_payload (hc : c.WF) (hlen : llr.length = c.B) (hi : c.K ≤ i) :
    (pad c llr)[i]? = (List.replicate c.PADN c.LLR_PAD ++ llr.drop c.K)[i - c.K]? := by
  have htake := length_take_payload hc hlen
  rw [pad_eq_append, List.getElem?_append_right (by rwa [htake]), htake]

theorem pad_getElem?_padding (hc : c.WF) (hlen : llr.length = c.B) (hK : c.K ≤ i) (hi : i < c.ND) :
    (pad c llr)[i]? = some c.LLR_PAD := by
  have hpad : i - c.K < c.PADN := by rw [Config.PADN]; omega
  rw [pad_getElem?_past_payload hc hlen hK,
    List.getElem?_append_left (by rwa [List.length_replicate]), List.getElem?_replicate_of_lt hpad]

theorem pad_getElem?_parity (hc : c.WF) (hlen : llr.length = c.B) (hi : c.ND ≤ i) :
    (pad c llr)[i]? = llr[i - (c.ND - c.K)]? := by
  have hdata := hc.data_capacity
  have hpad : c.PADN ≤ i - c.K := by rw [Config.PADN]; omega
  have hplace : c.K + (i - c.K - c.PADN) = i - (c.ND - c.K) := by rw [Config.PADN]; omega
  rw [pad_getElem?_past_payload hc hlen (by omega),
    List.getElem?_append_right (by rwa [List.length_replicate]), List.length_replicate,
    List.getElem?_drop, hplace]

/-- Settles O32: the array is the payload LLRs, the pad constants and the parity LLRs, each part at
its place. -/
theorem padLayout : Obligations.PadLayout := by
  intro c hc llr hlen
  exact ⟨pad_length hc hlen, fun i hi => pad_getElem?_payload hc hlen hi,
    fun i hK hi => pad_getElem?_padding hc hlen hK hi,
    fun i hi _ => pad_getElem?_parity hc hlen hi, fun h => if_pos h⟩

end Sys2Proof.Machine
end

section
/-! ### One sub-frame of DSUB: the decode and the next phase (R120, R124) -/

namespace Sys2Proof.Machine

variable {c : Config} {s : State}

/-- The block of `k` elements of the `j`-th of `n` sub-frames ends within the `n` blocks. -/
theorem subFrame_end_le {j n : Nat} (hj : j < n) (k : Nat) : j * k + k ≤ n * k := by
  rw [← Nat.succ_mul]
  exact Nat.mul_le_mul_right _ hj

/-- DSUB leaves the counts of its own decode. -/
theorem dsub_counts (hc : c.WF) (h : s.subf < c.D) :
    (dsub c s).iter.toNat = (fecDecode c s s.subf).iter
      ∧ (dsub c s).pcc.toNat = (fecDecode c s s.subf).pcc := by
  have used := useDecoded_frame c s.subf (payload c (fecDecode c s s.subf)) (s.decodeSub c s.subf)
  have keep_iter := (congrArg State.iter used :)
  have keep_pcc := (congrArg State.pcc used :)
  obtain ⟨hpcc, hiter, -, -⟩ := decodeSub_counts hc s s.subf
  rw [← keep_iter] at hiter
  rw [← keep_pcc] at hpcc
  rw [dsub, if_pos h, dsubAdvance]
  split <;> exact ⟨hiter, hpcc⟩

/-- The next phase with the SUBF it begins at. -/
theorem dsub_sequencer (h : s.subf < c.D) :
    (s.subf + 1 < c.D → (dsub c s).subf = s.subf + 1 ∧ (dsub c s).seq = Phase.dsub)
      ∧ (c.D ≤ s.subf + 1 → (dsub c s).subf = 0 ∧ (dsub c s).seq = Phase.tdec) :=
  ⟨fun hmore => ((dsub_next c h).1 hmore).symm,
    fun hlast => (dsub_last h (Nat.not_lt.2 hlast)).symm⟩

end Sys2Proof.Machine
end

section
/-! ### DSUB outside test mode (R125) -/

namespace Sys2Proof.Machine

variable {c : Config} {s : State} {i : Nat}

theorem dsub_outbuf_of_stores (h : s.subf < c.D) (hmode : s.testMode = false) :
    (dsub c s).outbuf
      = memWriteBlock s.outbuf (s.subf * c.K) (payload c (fecDecode c s s.subf)) := by
  rw [dsub_eq_storeSub h hmode, dsubAdvance]
  split <;> rfl

/-- The accumulators are those of before: nothing is scored. -/
theorem dsub_frame_of_stores (h : s.subf < c.D) (hmode : s.testMode = false) :
    { dsub c s with iter := s.iter, pcc := s.pcc, outbuf := s.outbuf, trace := s.trace,
                    subf := s.subf, seq := s.seq } = s := by
  rw [dsub_eq_storeSub h hmode, dsubAdvance]
  split <;> rfl

theorem dsub_outbuf_payload (hc : c.WF) (h : s.subf < c.D) (hmode : s.testMode = false)
    (hlen : s.outbuf.length = c.D * c.K) (hi : i < c.K) :
    (dsub c s).outbuf[s.subf * c.K + i]? = (fecDecode c s s.subf).bits[i]? := by
  have hpayload := payload_length hc s s.subf
  have hroom := subFrame_end_le h c.K
  rw [dsub_outbuf_of_stores h hmode,
    memWriteBlock_inside _ _ _ _ (by rwa [hpayload, hlen]) (by rwa [hpayload]),
    payload_getElem? _ hi]

theorem dsub_outbuf_elsewhere (hc : c.WF) (h : s.subf < c.D) (hmode : s.testMode = false)
    (hi : i < s.subf * c.K ∨ s.subf * c.K + c.K ≤ i) :
    (dsub c s).outbuf[i]? = s.outbuf[i]? := by
  rw [dsub_outbuf_of_stores h hmode,
    memWriteBlock_outside _ _ _ _ (by rwa [payload_length hc s s.subf])]

/-- Settles O34: the payload is one block written at the sub-frame's offset, which lies within
OUTBUF. -/
theorem dsubStoresPayload : Obligations.DsubStoresPayload := by
  intro s hsubf hmode hlen r
  obtain ⟨hiter, hpcc⟩ := dsub_counts Config.cfg_wf hsubf
  obtain ⟨hmore, hlast⟩ := dsub_sequencer hsubf
  have hkept : (dsub Config.cfg s).outbuf.length = s.outbuf.length := by
    rw [dsub_outbuf_of_stores hsubf hmode, memWriteBlock_length]
  exact ⟨dsub Config.cfg s, rfl, hiter, hpcc, hkept,
    fun i hi => dsub_outbuf_payload Config.cfg_wf hsubf hmode hlen hi,
    fun x hx => dsub_outbuf_elsewhere Config.cfg_wf hsubf hmode hx,
    dsub_trace hsubf, hmore, hlast, dsub_frame_of_stores hsubf hmode⟩

end Sys2Proof.Machine
end

section
/-! ### The number of positions at which two sequences differ (R126) -/

namespace Sys2Proof.Machine

open Sys2Proof.Claims

/-- The first position apart, the others are those of the shifted sequences. -/
theorem differing_succ (n : Nat) (xs ys : Nat → Option Bit) :
    differing (n + 1) xs ys
      = differing n (fun i => xs (i + 1)) (fun i => ys (i + 1)) + if xs 0 ≠ ys 0 then 1 else 0 := by
  simp only [differing, Finset.card_filter, Finset.sum_range_succ']

theorem differing_congr {n : Nat} {xs ys xs' ys' : Nat → Option Bit} (hx : ∀ i < n, xs i = xs' i)
    (hy : ∀ i < n, ys i = ys' i) : differing n xs ys = differing n xs' ys' := by
  refine congrArg Finset.card (Finset.filter_congr fun i hi => ?_)
  have hi := Finset.mem_range.1 hi
  rw [hx i hi, hy i hi]

/-- What the model counts is what the spec writes, for sequences of one length. -/
theorem mismatches_eq_differing {xs ys : List Bit} (h : xs.length = ys.length) :
    mismatches xs ys = differing xs.length (fun i => xs[i]?) (fun i => ys[i]?) := by
  induction xs generalizing ys with
  | nil => rfl
  | cons x xs ih =>
    cases ys with
    | nil => cases h
    | cons y ys =>
      have htail := ih (Nat.succ.inj h)
      rw [List.length_cons, differing_succ]
      simp only [List.getElem?_cons_succ, List.getElem?_cons_zero]
      rw [← htail, mismatches, mismatches, List.zip_cons_cons, List.countP_cons]
      simp

end Sys2Proof.Machine
end

section
/-! ### DSUB in test mode (R126, R131) -/

namespace Sys2Proof.Machine

open Sys2Proof.Claims

variable {c : Config} {s : State}

/-- DSUB in test mode, SUBF and SEQ apart: the decode, and its payload scored against REF. -/
def scoreSub (c : Config) (s : State) : State :=
  { s.decodeSub c s.subf with
    terrsc := satadd32 s.terrsc (mismatches (payload c (fecDecode c s s.subf)) (refBits c s.subf))
    tbitsc := satadd32 s.tbitsc c.K }

theorem dsub_eq_scoreSub (h : s.subf < c.D) (hmode : s.testMode = true) :
    dsub c s = dsubAdvance c (scoreSub c s) := by
  have hon : (s.decodeSub c s.subf).testMode = true := hmode
  rw [dsub, if_pos h, useDecoded, if_pos hon]
  rfl

theorem dsub_accumulators_of_scores (h : s.subf < c.D) (hmode : s.testMode = true) :
    (dsub c s).terrsc
        = satadd32 s.terrsc (mismatches (payload c (fecDecode c s s.subf)) (refBits c s.subf))
      ∧ (dsub c s).tbitsc = satadd32 s.tbitsc c.K := by
  rw [dsub_eq_scoreSub h hmode, dsubAdvance]
  split <;> exact ⟨rfl, rfl⟩

/-- OUTBUF is that of before: nothing is stored. -/
theorem dsub_frame_of_scores (h : s.subf < c.D) (hmode : s.testMode = true) :
    { dsub c s with iter := s.iter, pcc := s.pcc, terrsc := s.terrsc, tbitsc := s.tbitsc,
                    trace := s.trace, subf := s.subf, seq := s.seq } = s := by
  rw [dsub_eq_scoreSub h hmode, dsubAdvance]
  split <;> rfl

theorem refBits_getElem? (c : Config) (j : Nat) {i : Nat} (hi : i < c.K) :
    (refBits c j)[i]? = c.REF[j * c.K + i]? := by
  rw [refBits, List.getElem?_take_of_lt hi, List.getElem?_drop]

theorem refBits_length (hc : c.WF) {j : Nat} (hj : j < c.D) : (refBits c j).length = c.K := by
  rw [refBits, List.length_take, List.length_drop, hc.ref_length]
  exact Nat.min_eq_left (Nat.le_sub_of_add_le' (subFrame_end_le hj c.K))

/-- The score of a sub-frame in terms of the decoder's bits and REF. -/
theorem mismatches_payload (hc : c.WF) (s : State) {j : Nat} (hj : j < c.D) :
    mismatches (payload c (fecDecode c s j)) (refBits c j)
      = differing c.K (fun i => (fecDecode c s j).bits[i]?) (fun i => c.REF[j * c.K + i]?) := by
  have hpayload := payload_length hc s j
  rw [mismatches_eq_differing (hpayload.trans (refBits_length hc hj).symm), hpayload]
  exact differing_congr (fun i hi => payload_getElem? _ hi) (fun i hi => refBits_getElem? c j hi)

/-- Settles O35: what is scored is the payload against the reference bits of its sub-frame. -/
theorem dsubScoresInTestMode : Obligations.DsubScoresInTestMode := by
  intro s hsubf hmode r e
  obtain ⟨hiter, hpcc⟩ := dsub_counts Config.cfg_wf hsubf
  obtain ⟨hmore, hlast⟩ := dsub_sequencer hsubf
  obtain ⟨hterrsc, htbitsc⟩ := dsub_accumulators_of_scores hsubf hmode
  rw [mismatches_payload Config.cfg_wf s hsubf] at hterrsc
  exact ⟨dsub Config.cfg s, rfl, hiter, hpcc, hterrsc ▸ satadd32_toNat _ _,
    htbitsc ▸ satadd32_toNat _ _, dsub_trace hsubf, hmore, hlast, dsub_frame_of_scores hsubf hmode⟩

end Sys2Proof.Machine
end

/-! ## Statistics and verdict (spec/45_stats_verdict.md) -/

section
/-! ### UWER (R130, R131) -/

namespace Sys2Proof.Machine

open Sys2Proof.Claims

variable {c : Config} {s : State}

theorem uwerrField_toNat {e : Nat} (h : e < 2 ^ 16) : (uwerrField c e).toNat = e := by
  rw [uwerrField, if_pos h, BitVec.toNat_ofNat, Nat.mod_eq_of_lt h]

/-- The count of unique-word errors in terms of the items of a whole frame and the unique word. -/
theorem mismatches_inUw (hc : c.WF) (hlen : s.lat.items.length = 3 + c.U + 2 * c.S + c.T) :
    mismatches (inUw c s) c.UW
      = differing c.U (fun i => (inUw c s)[i]?) (fun i => c.UW[i]?) := by
  have huw := inUw_length c s hlen
  rw [mismatches_eq_differing (huw.trans hc.uw_length.symm), huw]

/-- Settles O43: what UWER adds up is the number of positions at which the received unique word
differs. -/
theorem uwerCountsErrors : Obligations.UwerCountsErrors := by
  intro s hlen e
  have hcount : mismatches (inUw Config.cfg s) Config.cfg.UW = e :=
    mismatches_inUw Config.cfg_wf hlen
  have huwerr : (uwer Config.cfg s).uwerr = uwerrField Config.cfg e := hcount ▸ rfl
  have hterrs : (uwer Config.cfg s).terrs = satadd32 s.terrs e := hcount ▸ rfl
  exact ⟨uwer Config.cfg s, rfl, fun hfits => huwerr ▸ uwerrField_toNat hfits,
    hterrs ▸ satadd32_toNat _ _, satadd32_toNat _ _, rfl, uwer_frame Config.cfg s⟩

end Sys2Proof.Machine
end

section
/-! ### The verdict when only the SNR estimate changes (R135) -/

namespace Sys2Proof.Machine

variable {c : Config} {s : State} {x : Code}

/-- The state with another item 1, the one that holds the SNR estimate (R67). -/
def withSnrItem (s : State) (x : Code) : State :=
  { s with lat := { s.lat with items := s.lat.items.set 1 x } }

theorem inNinCur_withSnrItem (s : State) (x : Code) : inNinCur (withSnrItem s x) = inNinCur s := by
  have hitem : item (withSnrItem s x) 0 = item s 0 := by simp [item, withSnrItem]
  rw [inNinCur, hitem, inNinCur]

/-- An SNR below the threshold mutes with squelch on, whatever the sync predicate says. -/
theorem verdictOf_muted_of_low (hsq : s.sqEn = true) (hlow : (inSnrEst s).toInt < s.sqth.toInt) :
    verdictOf c s = (.muted, 0) := by
  cases hsync : syncPredicate c s s.lat.post with
  | false => exact verdictOf_muted hsync hsq
  | true => exact verdictOf_squelched hsync hsq hlow

/-- The verdict reads the SNR through the squelch condition alone. -/
theorem verdictOf_withSnrItem
    (h : (s.sqEn && belowThreshold (inSnrEst (withSnrItem s x)) s.sqth)
      = (s.sqEn && belowThreshold (inSnrEst s) s.sqth)) :
    verdictOf c (withSnrItem s x) = verdictOf c s := by
  rw [verdictOf, verdictOf, inNinCur_withSnrItem, ← h]
  rfl

theorem verdictOf_of_lower_snr (hle : (inSnrEst (withSnrItem s x)).toInt ≤ (inSnrEst s).toInt) :
    verdictOf c (withSnrItem s x) = verdictOf c s
      ∨ verdictOf c (withSnrItem s x) = (.muted, 0) := by
  cases hsq : s.sqEn with
  | false => exact .inl (verdictOf_withSnrItem (by rw [hsq, Bool.false_and, Bool.false_and]))
  | true =>
    by_cases hlow : (inSnrEst (withSnrItem s x)).toInt < s.sqth.toInt
    · exact .inr (verdictOf_muted_of_low hsq hlow)
    · have hnot : ¬(inSnrEst s).toInt < s.sqth.toInt := fun h => hlow (hle.trans_lt h)
      exact .inl (verdictOf_withSnrItem (by simp only [belowThreshold, hlow, hnot]))

/-- The one response a step of VERD sends. -/
theorem verdWord_of_response {t : State} {w : Word} (hstep : exec .verd s = .next t)
    (ht : t.trace = s.trace ++ [.response false w]) : w = verdWord Config.cfg s := by
  cases hstep
  have hsent := List.append_cancel_left (ht.symm.trans (verd_trace Config.cfg s))
  cases hsent
  rfl

/-- Settles O45: the word is made of the verdict, the sample count and DECODED, and a lower SNR
leaves the first two or mutes. -/
theorem verdictMonotoneInSnr : Obligations.VerdictMonotoneInSnr := by
  intro s t t' w w' x s' hle hstep ht hstep' ht'
  obtain rfl := verdWord_of_response hstep ht
  obtain rfl := verdWord_of_response hstep' ht'
  obtain hsame | hmuted : verdictOf Config.cfg s' = verdictOf Config.cfg s
      ∨ verdictOf Config.cfg s' = (.muted, 0) := verdictOf_of_lower_snr hle
  · left
    rw [verdWord, hsame, verdWord]
  · obtain ⟨hcode, hnout⟩ := verdWord_answer hmuted
    exact .inr ⟨hcode, BitVec.eq_of_toNat_eq hnout⟩

end Sys2Proof.Machine
end

/-! ## Errors: no state stops the sequencer, and what the three host errors do
(spec/60_exceptions.md) -/

section
/-! ### A good state always has a next state (R70, R145) -/

namespace Sys2Proof.Machine

/-- The codes 0x0 to 0xA are those of a phase (R70). -/
theorem decodePhase_of_legal {p : BitVec 4} (hp : p.toNat ≤ 0xA) : ∃ i, decodePhase p = .ok i := by
  have hall : ∀ p : BitVec 4, p.toNat ≤ 0xA → (decodePhase p).isOk = true := by decide
  have hok := hall p hp
  cases hdec : decodePhase p with
  | ok i => exact ⟨i, rfl⟩
  | error e =>
    rw [hdec] at hok
    cases hok

/-- The word at the head of the command port does not decode (R65, R76). -/
theorem exec_idle_of_illegal {s : State} {w : Word} {rest : List Word} {e : DecodeError}
    (hcmd : s.env.cmd = w :: rest) (he : decodeCommand w = .error e) :
    exec .idle s
      = .next (raiseError .illegalCommand { s with env := { s.env with cmd := rest } }) := by
  rw [exec, execIdle, hcmd]
  simp only [acceptCommand, he]

theorem exec_idle_next (s : State) : ∃ t, exec .idle s = .next t := by
  cases hcmd : s.env.cmd with
  | nil => exact ⟨s, exec_idle_of_empty hcmd⟩
  | cons w rest =>
    cases hdec : decodeCommand w with
    | ok i =>
      rw [exec_idle_of_command hcmd hdec]
      exact exec_command_next (decodeCommand_isCommand hdec) _
    | error e => exact ⟨_, exec_idle_of_illegal hcmd hdec⟩

/-- No instruction's meaning ends in a fault or a refusal, whatever the state (R145). -/
theorem exec_next (i : Instr) (s : State) : ∃ t, exec i s = .next t := by
  cases i with
  | nop | srst | csrw | csrr | rdb | rxf | txt => exact exec_command_next rfl s
  | idle => exact exec_idle_next s
  | gate | shap | isyn | wchk | dsub | tdec | uwer | adv | verd | tenc => exact ⟨_, rfl⟩

/-- Settles O10: the one stop is a reserved code in SEQ, which the invariant rules out; a reset, a
wait and every phase answer a next state. -/
theorem goodStatesNeverStop : Obligations.GoodStatesNeverStop := by
  intro s hgood
  by_cases hrst : s.env.rst = true
  · exact ⟨_, if_pos hrst⟩
  by_cases hwait : stalled Config.cfg s = true
  · exact ⟨s, (if_neg hrst).trans (if_pos hwait)⟩
  obtain ⟨i, hi⟩ := decodePhase_of_legal hgood.seq_legal
  rw [step_eq_exec (Bool.eq_false_of_not_eq_true hrst) (Bool.eq_false_of_not_eq_true hwait) hi]
  exact exec_next i s

end Sys2Proof.Machine
end

section
/-! ### What raises each host error, and what it leaves (R140 to R144) -/

namespace Sys2Proof.Machine

open Sys2Proof.Claims

variable {s : State} {csr : BitVec 8}

theorem raiseError_errorEntered (e : HostError) (s : State) :
    ErrorEntered (errorCode e) s (raiseError e s) := by
  have hword : (errorCode e).zeroExtend 32 = BitVec.ofNat 32 (errorCode e).toNat :=
    (BitVec.ofNat_toNat 32 (errorCode e)).symm
  exact ⟨rfl, by rw [raiseError_trace, hword], rfl⟩

theorem csrw_of_unwritable (value : BitVec 16) (hcsr : 0x03 < csr.toNat) :
    csrw csr value s = raiseError .badCsr s := by
  rcases csrWritten_cases s csr value with ⟨rfl, -⟩ | ⟨rfl, -⟩ | ⟨rfl, -⟩ | ⟨rfl, -⟩ | ⟨-, hnone⟩
  · exact absurd hcsr (by decide)
  · exact absurd hcsr (by decide)
  · exact absurd hcsr (by decide)
  · exact absurd hcsr (by decide)
  · rw [csrw, hnone]

theorem csrr_of_unreadable (hcsr : 0x0D < csr.toNat) : csrr csr s = raiseError .badCsr s := by
  have hnone : csrView s csr = none := by
    rw [← Option.not_isSome_iff_eq_none, csrView_isSome, decide_eq_true_iff]
    exact Nat.not_le.2 hcsr
  rw [csrr, hnone]

theorem rdb_past_buffer {c : Config} {index : BitVec 16} (hindex : c.OUT_BYTES ≤ index.toNat) :
    rdb c index s = raiseError .badOperand s := if_pos hindex

theorem rxf_of_reserved {phyGate phyPost : BitVec 2}
    (hreserved : phyGate = Phy.reserved ∨ phyPost = Phy.reserved) :
    rxf phyGate phyPost s = raiseError .badOperand s := if_pos hreserved

/-- Settles O12: under each condition the meaning is `raiseError`, which is error entry. -/
theorem errorsLeaveOnlyTheirCode : Obligations.ErrorsLeaveOnlyTheirCode := by
  intro s
  refine ⟨fun csr value hcsr => ?_, fun csr hcsr => ?_, fun index hindex => ?_,
    fun phyGate phyPost hreserved => ?_, fun w rest e hcmd he => ?_⟩
  · exact ⟨_, congrArg Host.Outcome.next (csrw_of_unwritable value hcsr),
      raiseError_errorEntered .badCsr s⟩
  · exact ⟨_, congrArg Host.Outcome.next (csrr_of_unreadable hcsr),
      raiseError_errorEntered .badCsr s⟩
  · exact ⟨_, congrArg Host.Outcome.next (rdb_past_buffer hindex),
      raiseError_errorEntered .badOperand s⟩
  · exact ⟨_, congrArg Host.Outcome.next (rxf_of_reserved hreserved),
      raiseError_errorEntered .badOperand s⟩
  · exact ⟨_, exec_idle_of_illegal hcmd he, raiseError_errorEntered .illegalCommand _⟩

end Sys2Proof.Machine
end

/-! ## Reset and hazards: what the reset pin, a wait and a short GATE leave, and how far the text
encoder and the receive side are apart (spec/70_reset_and_hazards.md) -/

section
/-! ### The reset pin (R160) -/

namespace Sys2Proof.Machine

/-- Settles O7: with the pin high the step is the session reset, whose outside and trace are the
old ones. -/
theorem resetPinRestoresReset : Obligations.ResetPinRestoresReset := fun s hrst =>
  ⟨s.sessionReset Config.cfg, if_pos hrst, resetValues_resetOn .., rfl, rfl⟩

end Sys2Proof.Machine
end

section
/-! ### GATE short of items (R167, R168) -/

namespace Sys2Proof.Machine

variable {c : Config} {s : State}

/-- While items are missing GATE stays where it is, before or after its headers (R168). -/
theorem gate_of_missing (hmissing : (takeItems c s).lat.items.length < neededItems c s.lat.gate) :
    gate c s = takeItems c s ∨ gate c s = headersIn c s := by
  by_cases hheaders : (takeItems c s).lat.items.length < 2
  · exact .inl (if_pos hheaders)
  · have habsorbs : s.lat.gate ≠ Phy.searching := by
      intro hsearch
      rw [neededItems, if_pos hsearch] at hmissing
      exact hheaders hmissing
    exact .inr ((if_neg hheaders).trans ((if_neg habsorbs).trans (if_pos hmissing)))

/-- GATE that misses at least the queued items takes the whole queue. -/
theorem takeItems_of_short
    (hshort : s.lat.items.length + s.env.din.length ≤ neededItems c s.lat.gate) :
    takeItems c s =
      { s with
        lat := { s.lat with items := s.lat.items ++ s.env.din }
        env := { s.env with din := [] } } := by
  have hall : s.env.din.length ≤ neededItems c s.lat.gate - s.lat.items.length := by omega
  rw [takeItems, List.take_of_length_le hall, List.drop_eq_nil_of_le hall]

/-- Settles O22: short of items GATE takes the queue, and may clear the per-call flags. -/
theorem gateWaitsForItems : Obligations.GateWaitsForItems := by
  intro s hshort
  have htaken := takeItems_of_short hshort.le
  have hmissing :
      (takeItems Config.cfg s).lat.items.length < neededItems Config.cfg s.lat.gate := by
    rw [htaken, List.length_append]
    exact hshort
  refine ⟨gate Config.cfg s, rfl, ?_⟩
  rcases gate_of_missing hmissing with hgate | hgate
  · rw [hgate, htaken]
    exact ⟨rfl, rfl, rfl, rfl, rfl, rfl, rfl⟩
  · rw [hgate, headersIn, htaken]
    exact ⟨rfl, rfl, rfl, rfl, rfl, rfl, rfl⟩

end Sys2Proof.Machine
end

section
/-! ### Waiting for the outside (R75, R168) -/

namespace Sys2Proof.Machine

variable {c : Config} {s : State}

/-! #### What holds a micro-operation -/

theorem stalled_of_response (hready : s.env.rspReady = false) (hsends : sendsResponse c s = true) :
    stalled c s = true := by
  simp [stalled, hready, hsends]

theorem stalled_of_textBit (hready : s.env.tboReady = false) (hq : s.seq = Phase.tenc)
    (hslot : s.slot < c.D * c.T) : stalled c s = true := by
  simp [stalled, hready, hq, hslot]

theorem stalled_of_delivery (hready : s.env.rxcReady = false) (hq : s.seq = Phase.tdec)
    (hslot : s.slot < c.T) (hchar : (delivered c s).isSome = true) : stalled c s = true := by
  simp [stalled, hready, hq, hslot, hchar]

theorem stalled_of_decoder (hready : s.env.s2lReady = false ∨ s.env.decReady = false)
    (hinvokes : invokesDecoder c s = true) : stalled c s = true := by
  rcases hready with hready | hready <;> simp [stalled, hready, hinvokes]

/-! #### Who responds and who invokes the decoder -/

/-- Every decoded command but RXF and TXT responds where it is (R70). -/
theorem respondsInPlace_of_decoded {w : Word} {i : Instr} (hi : decodeCommand w = .ok i)
    (htxt : i ≠ .txt) (hrxf : ∀ phyGate phyPost, i ≠ .rxf phyGate phyPost) :
    respondsInPlace c w = true := by
  rw [respondsInPlace, hi]
  cases i with
  | txt => exact absurd rfl htxt
  | rxf phyGate phyPost => exact absurd rfl (hrxf phyGate phyPost)
  | _ => exact Bool.or_true _

theorem sendsResponse_of_command {w : Word} {rest : List Word} (hq : s.seq = Phase.idle)
    (hcmd : s.env.cmd = w :: rest) (hplace : respondsInPlace c w = true) :
    sendsResponse c s = true := by
  simp [sendsResponse, hq, hcmd, hplace]

theorem sendsResponse_of_verd (hq : s.seq = Phase.verd) : sendsResponse c s = true := by
  simp [sendsResponse, hq]

theorem sendsResponse_of_last_slot (hq : s.seq = Phase.tenc) (hlast : c.D * c.T ≤ s.slot + 1) :
    sendsResponse c s = true := by
  simp [sendsResponse, hq, hlast]

theorem invokesDecoder_of_trial (hq : s.seq = Phase.isyn) (hsync : s.ilvSynced = false)
    (hfull : c.D ≤ s.fci + 1) : invokesDecoder c s = true := by
  simp [invokesDecoder, hq, hsync, hfull]

theorem invokesDecoder_of_subFrame (hq : s.seq = Phase.dsub) (hsubf : s.subf < c.D) :
    invokesDecoder c s = true := by
  simp [invokesDecoder, hq, hsubf]

/-! #### A step that waits -/

theorem step_of_stalled (hrst : s.env.rst = false) (h : stalled Config.cfg s = true) :
    step s = .next s := by
  rw [step, hrst, h]
  rfl

/-- Where the phase itself waits, the step waits whether or not a port holds it. -/
theorem step_of_phase_waits {i : Instr} (hrst : s.env.rst = false) (hi : decodePhase s.seq = .ok i)
    (hwaits : exec i s = .next s) : step s = .next s := by
  by_cases hstall : stalled Config.cfg s = true
  · exact step_of_stalled hrst hstall
  · exact (step_eq_exec hrst (Bool.eq_false_of_not_eq_true hstall) hi).trans hwaits

/-- Settles O11: IDLE without a command and TENC without an answer wait in the phase; the other
waits are for a port or a collaborator. -/
theorem waitingChangesNothing : Obligations.WaitingChangesNothing := by
  rintro s hrst (⟨hq, hcmd⟩ | ⟨hq, hready, w, rest, i, hcmd, hi, htxt, hrxf⟩ |
    ⟨hq, hslot, hn, hsrc, hans⟩ | ⟨hq, hready⟩ | ⟨hq, hlast, hready⟩ | ⟨hq, hslot, hready⟩ |
    ⟨hq, hslot, hsink, hchar, hready⟩ | ⟨hq, hsync, hfull, hready⟩ | ⟨hq, hsubf, hready⟩)
  case inl => exact step_of_phase_waits hrst (congrArg decodePhase hq) (exec_idle_of_empty hcmd)
  case inr.inr.inl =>
    exact step_of_phase_waits hrst (congrArg decodePhase hq)
      (congrArg Host.Outcome.next (tenc_waits hn hsrc hans hslot))
  all_goals apply step_of_stalled hrst
  · exact stalled_of_response hready
      (sendsResponse_of_command hq hcmd (respondsInPlace_of_decoded hi htxt hrxf))
  · exact stalled_of_response hready (sendsResponse_of_verd hq)
  · exact stalled_of_response hready (sendsResponse_of_last_slot hq hlast.ge)
  · exact stalled_of_textBit hready hq hslot
  · refine stalled_of_delivery hready hq hslot ?_
    rw [delivered, if_pos hsink]
    exact Option.isSome_iff_ne_none.2 hchar
  · exact stalled_of_decoder hready (invokesDecoder_of_trial hq hsync hfull)
  · exact stalled_of_decoder hready (invokesDecoder_of_subFrame hq hsubf)

end Sys2Proof.Machine
end

section
/-! ### The encoder and the receive side keep apart (R18, R171) -/

namespace Sys2Proof.Machine

variable {c : Config} {s t : State}

/-- The encoder: its registers and the answers its source still has (R18, R92). -/
def State.encoder (s : State) : List Bit × Nat × Nat × List (Option Char8) :=
  (s.txBits, s.txIdx, s.txN, s.env.txc)

theorem encoder_eq_iff : t.encoder = s.encoder ↔
    t.txBits = s.txBits ∧ t.txIdx = s.txIdx ∧ t.txN = s.txN ∧ t.env.txc = s.env.txc := by
  simp only [State.encoder, Prod.mk.injEq]

theorem CommandDone.encoder {w : Word} (h : CommandDone c w s t) (hw : w ≠ 0x01000000) :
    t.encoder = s.encoder := (congrArg State.encoder (h.frame hw) :)

/-- GATE takes from the stream alone (R101). -/
theorem gate_encoder (c : Config) (s : State) : (gate c s).encoder = s.encoder := by
  rcases gate_cases c s with h | h | h | h <;> rw [h] <;> rfl

/-- Of the phases TENC alone moves the encoder. -/
theorem PhaseDone.encoder (h : PhaseDone c s t) (hphase : s.seq ≠ Phase.idle)
    (htenc : s.seq ≠ Phase.tenc) : t.encoder = s.encoder := by
  cases h with
  | waits => rfl
  | command hidle => exact absurd hidle hphase
  | gate => exact gate_encoder c s
  | shap => rfl
  | isyn => exact (congrArg State.encoder (isyn_frame c s) :)
  | wchk => exact (congrArg State.encoder (wchk_frame c s) :)
  | dsub => exact (congrArg State.encoder (dsub_frame c s) :)
  | tdec => exact (congrArg State.encoder (tdec_frame c s) :)
  | uwer => rfl
  | adv => exact (congrArg State.encoder (adv_frame s) :)
  | verd => rfl
  | tenc hq => exact absurd hq htenc

theorem PhaseDone.eq_tenc (h : PhaseDone c s t) (hq : s.seq = Phase.tenc) :
    t = Machine.tenc c s := by
  cases h with
  | tenc => rfl
  | _ hother => simp [hq] at hother

/-- Of the outside TENC takes from the source's answers alone (R93). -/
theorem tenc_env (c : Config) (s : State) :
    { (tenc c s).env with txc := s.env.txc } = s.env := by
  obtain ⟨_, _, _, _, _, _, _, h⟩ := tenc_form c s
  rw [h]

/-- Settles O50: a wait moves neither side, a command within a session and every phase but TENC
keep the encoder, and TENC keeps what its frame keeps. -/
theorem textSidesIndependent : Obligations.TextSidesIndependent := by
  intro s t h hrst hsession
  rw [← encoder_eq_iff]
  rcases session_step_cases h hrst hsession with
    rfl | ⟨w, rest, hidle, -, hw, hdone⟩ | ⟨hphase, hdone⟩
  · exact ⟨fun _ => rfl, fun _ => ⟨rfl, rfl⟩⟩
  · exact ⟨fun _ => hdone.encoder hw, fun hq => by simp [hidle] at hq⟩
  · refine ⟨hdone.encoder hphase, fun hq => ?_⟩
    rw [hdone.eq_tenc hq]
    exact ⟨tenc_frame Config.cfg s, tenc_env Config.cfg s⟩

end Sys2Proof.Machine
end
